-- ==== Sys2Proof/Word.lean ====
section
/-! DEFINITION. The words of the controller: bytes, 32-bit counts that wrap, and the signed difference of two of
them (spec/00_scope.md, "Conventions"). -/

namespace Sys2Proof

/-- One byte of a frame, or a mask with one bit for each lane. -/
abbrev Byte := BitVec 8

/-- A web position, a row number or any other 32-bit count; all of them wrap from 2^32 - 1 to 0. -/
abbrev Word := BitVec 32

/-- A stack id (R119). -/
abbrev StackId := BitVec 16

/-- `a - b` read as a signed two's-complement value ("Positions and differences", spec/00_scope.md). -/
def wdiff (a b : Word) : Int := (a - b).toInt

/-- The nearest value to `x` in the range `[lo, hi]`. -/
def clampInt (lo hi x : Int) : Int := if x < lo then lo else if hi < x then hi else x

/-- The nearest value to `x` in the range `[lo, hi]`. -/
def clampNat (lo hi x : Nat) : Nat := if x < lo then lo else if hi < x then hi else x

/-- `sign(e) × (|e| >> n)`, the manual's shift of a signed quantity ("Arithmetic", spec/00_scope.md). -/
def shiftMagnitude (e : Int) (n : Nat) : Int := e.sign * ((e.natAbs >>> n : Nat) : Int)

/-- `sign(d) × ((|d| + half) >> n)`: a signed quotient rounded to nearest, halves away from zero, when `half` is
half of `2^n` (R22, R33). -/
def shiftRounded (d : Int) (half n : Nat) : Int := d.sign * (((d.natAbs + half) >>> n : Nat) : Int)

end Sys2Proof
end

