-- ==== Sys2Proof/Syntax.lean ====
section
/-! DEFINITION. The commands: one constructor for each row of spec/opcode_table.json, and the requests that the masters
send (R171), with the arguments of the catalogue at the catalogue's widths. -/

namespace Sys2Proof

/-- The three link ports (R160). -/
inductive Port where
  | line | inspection | delivery
  deriving DecidableEq, Repr

/-- The encoder phase that changes in a legal edge (R15). -/
inductive EncoderPhase where
  | a | b
  deriving DecidableEq, Repr

/-- The five strap pins; `true` is a high pin (R3, R15, R98). -/
structure Straps where
  dir   : Bool
  safe  : Bool
  lanes : BitVec 3
  deriving DecidableEq, Repr

/-- What the first JOB_LOAD frame carries (R174). -/
structure JobPart where
  slot : Byte
  rn   : BitVec 24
  lk   : BitVec 24
  li   : BitVec 24
  lead : BitVec 24
  deriving DecidableEq, Repr

/-- What the second JOB_LOAD frame carries (R174). -/
structure JobRest where
  wc        : BitVec 16
  tolerance : BitVec 24
  target    : BitVec 16
  k         : Byte
  j         : Byte
  missLimit : Byte
  lanes     : Byte
  policies  : Byte
  deriving DecidableEq, Repr

/-- A request as its frame carries it (R171, R174): the two parts of a JOB_LOAD are frames of their own (R164), and POLL
is not a request. -/
inductive Request where
  | takeNotice (page : Byte)
  | peekNotice (page : Byte)
  | fetchSummary
  | setAttention (level : Byte)
  | portClear
  | readStatus (page : Byte)
  | readRow (row : Word) (page : Byte)
  | readStack (id : StackId) (page : Byte)
  | readLane (lane page : Byte)
  | rangeTally (first : Word) (length : BitVec 16) (mask : Byte)
  | rangeForce (first : Word) (length : BitVec 16) (mask : Byte)
  | rangeOverrule (first : Word) (length : BitVec 16) (mask : Byte)
  | jobLoadPart (part : JobPart)
  | jobLoad (rest : JobRest)
  | jobSwitch (slot : Byte) (atRow : Word)
  | arm (slot : Byte)
  | disarm
  | restart
  | resetTracking
  | faultClear
  | readFault
  | lineMode (line lane mode : Byte)
  | lineSet (line lane : Byte)
  | lineClear (line lane : Byte)
  | clearPocket (lane scope : Byte)
  | clearTallies (mask : Byte)
  | grade (row : Word) (mask : Byte) (grades : List Byte)
  | triggerRow
  | accept (id : StackId) (counted : Option (BitVec 16))
  | decline (id : StackId)
  | setOfferWindow (cuts : BitVec 16)
  deriving DecidableEq, Repr

/-- A request with the tag of its frame (R174). -/
structure Taken where
  tag     : Byte
  request : Request
  deriving DecidableEq, Repr

/-- The commands of the block, in the order of spec/opcode_table.json. Pin events and the block's own events come
first; each request carries the port it is sent on and its tag. -/
inductive Instr where
  /-- RESET_N goes low, or STRAP_SAFE changes while it is low; the operand is the level of STRAP_SAFE (R98). -/
  | resetNAsserted (strapSafe : Bool)
  /-- RESET_N goes high with these straps and encoder phases present (R21). -/
  | resetNReleased (straps : Straps) (encA encB : Bool)
  /-- One phase of the encoder changes (R15). -/
  | encoderEdge (phase : EncoderPhase)
  /-- Both phases of the encoder change at once (R15, R48). -/
  | encoderFault
  | markEdge
  | knifeEdge
  | flywheelDeadline
  | rowCreation
  | triggerDeadline (row : Word)
  | triggerEvent
  | triggerOffDeadline
  | commitDeadline (row : Word)
  | commit
  | missedCutDeadline (row : Word)
  | missedCutEvent
  | knifeEvent
  | reversalForcing
  | offerExpiry (lane : Nat)
  | backoffExpiry (lane : Nat)
  | rangeStep
  | selectFall (port : Port)
  /-- The select of `port` rises after these bits were clocked in, first bit first (R160). -/
  | selectRise (port : Port) (bits : List Bool)
  | poll (port : Port) (tag : Byte)
  | takeNotice (port : Port) (tag page : Byte)
  | peekNotice (port : Port) (tag page : Byte)
  | fetchSummary (port : Port) (tag : Byte)
  | setAttention (port : Port) (tag level : Byte)
  | portClear (port : Port) (tag : Byte)
  | readStatus (port : Port) (tag page : Byte)
  | readRow (port : Port) (tag : Byte) (row : Word) (page : Byte)
  | readStack (port : Port) (tag : Byte) (id : StackId) (page : Byte)
  | readLane (port : Port) (tag lane page : Byte)
  | rangeTally (port : Port) (tag : Byte) (first : Word) (length : BitVec 16) (mask : Byte)
  | rangeForce (port : Port) (tag : Byte) (first : Word) (length : BitVec 16) (mask : Byte)
  | rangeOverrule (port : Port) (tag : Byte) (first : Word) (length : BitVec 16) (mask : Byte)
  | jobLoadPart (port : Port) (tag : Byte) (part : JobPart)
  /-- The second part. `part` is the first part that was sent before it; the command does not carry it again, and what is
  loaded is the first part that the part buffer holds under the tag (R164). -/
  | jobLoad (port : Port) (tag : Byte) (part : JobPart) (rest : JobRest)
  | jobSwitch (port : Port) (tag slot : Byte) (atRow : Word)
  | arm (port : Port) (tag slot : Byte)
  | disarm (port : Port) (tag : Byte)
  | restart (port : Port) (tag : Byte)
  | resetTracking (port : Port) (tag : Byte)
  | faultClear (port : Port) (tag : Byte)
  | readFault (port : Port) (tag : Byte)
  | lineMode (port : Port) (tag line lane mode : Byte)
  | lineSet (port : Port) (tag line lane : Byte)
  | lineClear (port : Port) (tag line lane : Byte)
  | clearPocket (port : Port) (tag lane scope : Byte)
  | clearTallies (port : Port) (tag mask : Byte)
  | grade (port : Port) (tag : Byte) (row : Word) (mask : Byte) (grades : List Byte)
  | triggerRow (port : Port) (tag : Byte)
  | accept (port : Port) (tag : Byte) (id : StackId) (counted : Option (BitVec 16))
  | decline (port : Port) (tag : Byte) (id : StackId)
  | setOfferWindow (port : Port) (tag : Byte) (cuts : BitVec 16)
  deriving DecidableEq, Repr

end Sys2Proof
end

