-- ==== Sys2Proof/Decode.lean ====
section
/-! DEFINITION. The reading of a table word. spec/opcode_table.json gives no row any bits, so no word spells a command;
the frames of the links are read by Sys2Proof/Machine/Frames.lean. -/

namespace Sys2Proof

/-- The command that a word of the table spells: none, since no row gives bits. -/
def decodeTableWord (_nbits _w : Nat) : Option Instr := none

end Sys2Proof
end

