-- ==== Sys2Proof/Config.lean ====
section
/-! DEFINITION. The fixed capacities and counts that the manual gives the part. The manual calls no value undefined,
so there is no free value here. -/

namespace Sys2Proof.Config

/-- Row records that the table can hold (R57). -/
abbrev tableCapacity : Nat := 512

/-- CUT and MISSED rows kept after an event (R66). -/
abbrev retainedRows : Nat := 16

/-- Records in a port's notice queue (R166). -/
abbrev noticeCapacity : Nat := 16

/-- Rows on a suspect list (R122). -/
abbrev suspectCapacity : Nat := 8

/-- Entries in the range queue (R149). -/
abbrev rangeCapacity : Nat := 4

/-- Port requests served in a row while a range step waits (R74). -/
abbrev streakLimit : Nat := 8

/-- Declines that strand a stack (R141, R142). -/
abbrev strandingDeclines : Nat := 6

/-- Bytes in a frame (R160). -/
abbrev frameBytes : Nat := 16

/-- Bytes in a reply's result (R173). -/
abbrev resultBytes : Nat := 13

/-- Gate lines and separator lines (R98). -/
abbrev lineCount : Nat := 6

/-- The offer setting at power-on (R136). -/
abbrev offerSettingAtReset : Nat := 64

/-- How far a first row may lie beyond the newest row (R150). -/
abbrev rangeReach : Int := 512

/-- How far at_row may lie past the next row number (R8). -/
abbrev switchReach : Int := 65535

/-- The bound of the filtered cut error (R33). -/
abbrev efBound : Int := 32767

/-- An arrival this far behind the frontier is not compared (R29). -/
abbrev oldArrival : Int := 2 ^ 30

end Sys2Proof.Config
end

