-- ==== Sys2Proof/Machine/State.lean ====
section
/-! DEFINITION. The state of the controller, block by block, as plain data, and its reset value. -/

namespace Sys2Proof.Machine

/-- The number of a job slot (R1). -/
abbrev SlotNumber := Fin 4

/-- The tracking states (R37). -/
inductive TrackingState where
  | idle | hunt | track | drain | fault
  deriving DecidableEq, Repr

/-- The kinds of the fault record, least severe first (R53). -/
inductive FaultKind where
  | driftLimit | registerLost | reversal | missedCut | tableFull | encoderFault
  deriving DecidableEq, Repr

/-- A fault record that is not empty (R53). -/
structure FaultRecord where
  kind     : FaultKind
  row      : Option Word
  position : Word
  more     : Bool
  deriving DecidableEq, Repr

/-- The flywheel policy of a slot (spec/01, "What a job slot holds"). -/
inductive FlywheelPolicy where
  | trust | reject
  deriving DecidableEq, Repr

/-- The ungraded and minor policies of a slot (spec/01, "What a job slot holds"). -/
inductive LabelPolicy where
  | stack | divert
  deriving DecidableEq, Repr

/-- The fourteen fields of a VALID slot (R1). -/
structure Job where
  rn        : Nat
  lk        : Nat
  li        : Nat
  lead      : Nat
  wc        : Nat
  lanes     : Byte
  target    : Nat
  k         : Nat
  j         : Nat
  missLimit : Nat
  tolerance : Nat
  flywheel  : FlywheelPolicy
  ungraded  : LabelPolicy
  minor     : LabelPolicy
  deriving DecidableEq, Repr

/-- A plan switch that waits for its row to be created (R8). -/
structure ScheduledSwitch where
  slot  : SlotNumber
  atRow : Word
  deriving DecidableEq, Repr

/-- A plan switch that waits for its first row to commit (R10). -/
structure CarriedSwitch where
  previous : SlotNumber
  new      : SlotNumber
  row      : Word
  deriving DecidableEq, Repr

/-- The Job Store (R1, R7, R13). -/
structure JobStore where
  slots     : List (Option Job)
  plan      : Option SlotNumber
  scheduled : Option ScheduledSwitch
  carried   : Option CarriedSwitch
  deriving DecidableEq, Repr

/-- The kinds of position deadline (R18). -/
inductive DeadlineKind where
  | trigger (row : Word)
  | commit (row : Word)
  | missedCut (row : Word)
  | flywheel
  | triggerOff
  deriving DecidableEq, Repr

/-- An entry of the deadline list (R18). -/
structure Deadline where
  position : Word
  kind     : DeadlineKind
  deriving DecidableEq, Repr

/-- The Position Unit (R15 to R21). `fired` and `flywheelCrossing` are the model's own: the deadlines the frontier has
crossed that are not handed on yet, and the flywheel crossing that still may become a row (R61). -/
structure PositionUnit where
  encA             : Bool
  encB             : Bool
  web              : Word
  frontier         : Word
  deadlines        : List Deadline
  fired            : List Deadline
  flywheelCrossing : Option Word
  revArmed         : Bool
  deriving DecidableEq, Repr

/-- The Register Tracker (R35, R37, R53). -/
structure Tracker where
  state  : TrackingState
  armed  : Option SlotNumber
  rm     : Nat
  oSync  : Int
  offset : Int
  oi     : Nat
  ef     : Int
  miss   : Nat
  pmLast : Word
  fault  : Option FaultRecord
  deriving DecidableEq, Repr

/-- How a row came to be (R62). -/
inductive Origin where
  | sensed | flywheel | resync
  deriving DecidableEq, Repr

/-- The states of a row (R60). -/
inductive RowState where
  | travelling | committed | cut | missed
  deriving DecidableEq, Repr

/-- The grades of a row-lane (R78). -/
inductive Grade where
  | pending | good | minor | reject | forced | void
  deriving DecidableEq, Repr

/-- What the gate does with a row-lane (R85). -/
inductive Disposition where
  | stack | divert | manual
  deriving DecidableEq, Repr

/-- Why a row-lane was diverted (R85). -/
inductive DivertReason where
  | grade | ungraded | minorPolicy | blocked | double
  deriving DecidableEq, Repr

/-- The lane entry of a row record (R58). -/
structure RowLane where
  grade       : Grade
  disposition : Option Disposition
  reason      : Option DivertReason
  stack       : Option StackId
  late        : Bool
  deriving DecidableEq, Repr

/-- A row record (spec/04, "What a row record holds"). -/
structure Row where
  number        : Word
  origin        : Origin
  clamped       : Bool
  triggered     : Bool
  double        : Bool
  misregistered : Bool
  slot          : SlotNumber
  pm            : Word
  trigger       : Word
  arrival       : Word
  commit        : Word
  state         : RowState
  lanes         : List RowLane
  cutError      : Option Int
  deriving DecidableEq, Repr

/-- The Row Table, oldest row first (R57). -/
structure RowTable where
  rows    : List Row
  nextRow : Word
  deriving DecidableEq, Repr

/-- A tracking event that waits at the Table Access Unit (R71). `live` is false for a mark that a RESTART or
RESET_TRACKING has passed (R61). -/
inductive TrackingEvent where
  | mark (position : Word) (live : Bool)
  | flywheel (position : Word)
  | trigger (row : Word)
  | commit (row : Word)
  | missedCut (row position : Word)
  | knife (position : Word)
  | forcing
  deriving DecidableEq, Repr

/-- The Table Access Unit (R72 to R74, R77). -/
structure AccessUnit where
  events  : List TrackingEvent
  pointer : Port
  streak  : Nat
  deriving DecidableEq, Repr

/-- The mode of a gate or separator line (R113). -/
inductive LineMode where
  | functional | manual
  deriving DecidableEq, Repr

/-- A gate or separator line: `on` is POCKET for a gate and asserted for a separator (R98, R113). -/
structure FieldLine where
  mode   : LineMode
  on     : Bool
  stored : Bool
  deriving DecidableEq, Repr

/-- The Knife and Gate Unit (R116). -/
structure KnifeGate where
  gates         : List FieldLine
  seps          : List FieldLine
  itrig         : Bool
  cutDebt       : Bool
  orphanCuts    : Word
  lastTriggered : Option (Word × Word)
  deriving DecidableEq, Repr

/-- The states of a stack (R118). -/
inductive StackState where
  | opened | offered | backoff | stranded
  deriving DecidableEq, Repr

/-- A stack record (R118). -/
structure Stack where
  id          : StackId
  lane        : Nat
  slot        : SlotNumber
  target      : Nat
  count       : Nat
  minor       : Nat
  firstRow    : Option Word
  lastRow     : Option Word
  short       : Bool
  untracked   : Bool
  interrupted : Bool
  cleared     : Bool
  suspects    : List Word
  overflowed  : Bool
  state       : StackState
  declines    : Nat
  remaining   : Option Nat
  deriving DecidableEq, Repr

/-- The lane entry of the Pocket Unit (R117). -/
structure PocketLane where
  openStack      : Option Stack
  heldStack      : Option Stack
  pendingCount   : Nat
  overflow       : Bool
  closing        : Bool
  deferShort     : Bool
  deferUntracked : Bool
  stacked        : Word
  diverted       : Word
  manual         : Word
  lateRejects    : Word
  deriving DecidableEq, Repr

/-- The Pocket Unit: one entry for each lane below the lane limit (R117, R119). -/
structure PocketUnit where
  lanes  : List PocketLane
  nextId : StackId
  deriving DecidableEq, Repr

/-- The kinds of range request (R149). -/
inductive RangeKind where
  | force | overrule | tally
  deriving DecidableEq, Repr

/-- An entry of the range queue (R149). -/
structure RangeEntry where
  kind       : RangeKind
  port       : Port
  number     : Byte
  first      : Word
  length     : Nat
  mask       : Byte
  next       : Word
  stepped    : Nat
  applied    : Nat
  late       : Nat
  gone       : Nat
  pending    : Nat
  good       : Nat
  minor      : Nat
  condemning : Nat
  deriving DecidableEq, Repr

/-- The Range Unit, head first (R149). -/
structure RangeUnit where
  queue  : List RangeEntry
  number : Byte
  deriving DecidableEq, Repr

/-- The notice kinds (R172). -/
inductive NoticeKind where
  | stateChange | flywheelRow | resync | registerLost | reversal | driftLimit | missedCut | misregisteredCut
  | orphanCut | lateGrade | lateAfterDelivery | rowGone | stackOffer | stackStranded | laneBlocked | laneUnblocked
  | countMismatch | pocketCleared | rangeDone | jobSwitched | fault
  deriving DecidableEq, Repr

/-- A notice record; its level is fixed by its kind (R166). -/
structure Notice where
  kind     : NoticeKind
  row      : Option Word
  stack    : Option StackId
  lane     : Option Nat
  position : Option Word
  values   : List (BitVec 16)
  deriving DecidableEq, Repr

/-- The attention threshold of a port (R168). -/
inductive Threshold where
  | info | warn | alarm | off
  deriving DecidableEq, Repr

/-- The reply codes (R173). -/
inductive ReplyCode where
  | idle | stall | done | doneClamped | started | nothing | wrongPort | badState | badArg | unknownRow | rowGone
  | unknownStack | notOffered | rangeQueueFull | unknownKind
  deriving DecidableEq, Repr

/-- The sticky summary flags of a port; SPURIOUS_MARK is set on the Line Port only (R165). -/
structure SummaryFlags where
  stalled      : Bool
  framing      : Bool
  noticeLost   : Bool
  refused      : Bool
  spuriousMark : Bool
  deriving DecidableEq, Repr

/-- A reply with the header it was given when it was placed (R163, R173). -/
structure Reply where
  code   : ReplyCode
  tag    : Byte
  state  : TrackingState
  flags  : SummaryFlags
  result : List Byte
  deriving DecidableEq, Repr

/-- What the port drives out in an exchange (R161). -/
inductive Driven where
  | reply | stall | idle
  deriving DecidableEq, Repr

/-- An exchange in progress: the frame fixed when the select fell (R160, R161). -/
structure Exchange where
  driven : Driven
  out    : Reply
  deriving DecidableEq, Repr

/-- A link port (R161 to R170). -/
structure PortState where
  request   : Option Taken
  reply     : Option Reply
  exchange  : Option Exchange
  notices   : List Notice
  flags     : SummaryFlags
  threshold : Threshold
  deriving DecidableEq, Repr

/-- The Line Port's part buffer (R164). -/
structure PartBuffer where
  tag  : Byte
  part : JobPart
  deriving DecidableEq, Repr

/-- The state of the controller. `pending` is the model's own queue of commands that wait to be taken. -/
structure State where
  inReset      : Bool
  strapSafePin : Bool
  straps       : Straps
  pos          : PositionUnit
  trk          : Tracker
  jobs         : JobStore
  tab          : RowTable
  tau          : AccessUnit
  kg           : KnifeGate
  pock         : PocketUnit
  offerSetting : Nat
  rng          : RangeUnit
  line         : PortState
  insp         : PortState
  deliv        : PortState
  partBuffer   : Option PartBuffer
  pending      : List Instr
  deriving DecidableEq, Repr

/-- The block never stops with a fault: what the manual calls a fault is an effect on the state (R48, R49). -/
inductive Fault where
  deriving DecidableEq, Repr

/-- Why a command would have no meaning. -/
inductive Refusal where
  /-- Raised only by an arm of `exec` for a command without a meaning; no arm raises it. Safe. -/
  | notModelled (mnemonic : String)
  deriving DecidableEq, Repr

/-- What a command answers. -/
abbrev Result := Host.Outcome State Fault Refusal

/-- A FUNCTIONAL line at DIVERT or deasserted, its stored level the same (R113). -/
def FieldLine.atReset : FieldLine := ⟨.functional, false, false⟩

/-- A lane entry at power-on (R135). -/
def PocketLane.atReset : PocketLane := ⟨none, none, 0, false, false, false, false, 0, 0, 0, 0⟩

/-- No summary flag set (R170). -/
def SummaryFlags.clear : SummaryFlags := ⟨false, false, false, false, false⟩

/-- A port at power-on (R170). DESIGN CHOICE (log 16): its select line counts as high, and an exchange that was open when
RESET_N went low is dropped. -/
def PortState.atReset : PortState := ⟨none, none, none, [], .clear, .warn⟩

/-- The tracker at power-on (R35, R56). -/
def Tracker.atReset : Tracker := ⟨.idle, none, 0, 0, 0, 0, 0, 0, 0, none⟩

/-- The Job Store at power-on (R13). -/
def JobStore.atReset : JobStore := ⟨[none, none, none, none], none, none, none⟩

/-- The Knife and Gate Unit at power-on (R116). -/
def KnifeGate.atReset : KnifeGate :=
  ⟨List.replicate Config.lineCount .atReset, List.replicate Config.lineCount .atReset, false, false, 0, none⟩

/-- The controller right after the release of RESET_N (R13, R21, R35, R56, R77, R116, R135, R148, R159, R170).
DESIGN CHOICE (log 5): all five strap pins and both encoder phases are low. -/
def State.reset : State where
  inReset := false
  strapSafePin := false
  straps := ⟨false, false, 0⟩
  pos := ⟨false, false, 0, 0, [], [], none, false⟩
  trk := .atReset
  jobs := .atReset
  tab := ⟨[], 1⟩
  tau := ⟨[], .line, 0⟩
  kg := .atReset
  pock := ⟨List.replicate Config.lineCount .atReset, 1⟩
  offerSetting := Config.offerSettingAtReset
  rng := ⟨[], 0⟩
  line := .atReset
  insp := .atReset
  deliv := .atReset
  partBuffer := none
  pending := []

end Sys2Proof.Machine
end

