-- ==== Sys2Proof/Machine/Flags.lean ====
section
/-! DEFINITION. The codes and flag bytes of results and notices (R172, R173, R175), and the classes of grades and row
states (R60, R78). -/

namespace Sys2Proof.Machine

/-- A byte with the listed bits, bit 0 first. -/
def byteOfBits : List Bool → Byte
  | [] => 0
  | b :: bs => (byteOfBits bs) <<< 1 ||| (if b then 1 else 0)

/-- R173. -/
def TrackingState.code : TrackingState → Nat
  | .idle => 0 | .hunt => 1 | .track => 2 | .drain => 3 | .fault => 4

/-- R175; an empty record is 0. -/
def FaultKind.code : FaultKind → Nat
  | .driftLimit => 1 | .registerLost => 2 | .reversal => 3 | .missedCut => 4 | .tableFull => 5 | .encoderFault => 6

/-- R175. -/
def Origin.code : Origin → Nat
  | .sensed => 0 | .flywheel => 1 | .resync => 2

/-- R175. -/
def RowState.code : RowState → Nat
  | .travelling => 0 | .committed => 1 | .cut => 2 | .missed => 3

/-- R175. -/
def Grade.code : Grade → Nat
  | .pending => 0 | .good => 1 | .minor => 2 | .reject => 3 | .forced => 4 | .void => 5

/-- The grades that inspection may send, by code (R81). -/
def gradeOfCode? (b : Byte) : Option Grade :=
  if b = 1 then some .good else if b = 2 then some .minor else if b = 3 then some .reject else none

/-- R175. -/
def Disposition.code : Disposition → Nat
  | .stack => 1 | .divert => 2 | .manual => 3

/-- R175; no reason is 0. -/
def DivertReason.code : DivertReason → Nat
  | .grade => 1 | .ungraded => 2 | .minorPolicy => 3 | .blocked => 4 | .double => 5

/-- R175. -/
def StackState.code : StackState → Nat
  | .opened => 0 | .offered => 1 | .backoff => 2 | .stranded => 3

/-- R175. -/
def RangeKind.code : RangeKind → Nat
  | .force => 0 | .overrule => 1 | .tally => 2

/-- R175. -/
def portCode : Port → Nat
  | .line => 0 | .inspection => 1 | .delivery => 2

/-- R173. -/
def ReplyCode.code : ReplyCode → Nat
  | .idle => 0 | .stall => 1 | .done => 2 | .doneClamped => 3 | .started => 4 | .nothing => 5 | .wrongPort => 6
  | .badState => 7 | .badArg => 8 | .unknownRow => 9 | .rowGone => 10 | .unknownStack => 11 | .notOffered => 12
  | .rangeQueueFull => 13 | .unknownKind => 14

/-- The reply codes that refuse a request ("Names", spec/00_scope.md). -/
def ReplyCode.refuses : ReplyCode → Bool
  | .idle | .stall | .done | .doneClamped | .started | .nothing => false
  | .wrongPort | .badState | .badArg | .unknownRow | .rowGone | .unknownStack | .notOffered | .rangeQueueFull
  | .unknownKind => true

/-- R172. -/
def NoticeKind.code : NoticeKind → Nat
  | .stateChange => 1 | .flywheelRow => 2 | .resync => 3 | .registerLost => 4 | .reversal => 5 | .driftLimit => 6
  | .missedCut => 7 | .misregisteredCut => 8 | .orphanCut => 9 | .lateGrade => 10 | .lateAfterDelivery => 11
  | .rowGone => 12 | .stackOffer => 13 | .stackStranded => 14 | .laneBlocked => 15 | .laneUnblocked => 16
  | .countMismatch => 17 | .pocketCleared => 18 | .rangeDone => 19 | .jobSwitched => 20 | .fault => 21

/-- The level of a notice kind: INFO 0, WARN 1, ALARM 2 (R172, R175). -/
def NoticeKind.level : NoticeKind → Nat
  | .stateChange | .flywheelRow | .resync | .stackOffer | .laneUnblocked | .pocketCleared | .rangeDone
  | .jobSwitched => 0
  | .registerLost | .reversal | .driftLimit | .misregisteredCut | .orphanCut | .lateGrade | .rowGone | .laneBlocked
  | .countMismatch => 1
  | .missedCut | .lateAfterDelivery | .stackStranded | .fault => 2

/-- The ports that receive a notice of the kind (R172); RANGE_DONE goes to the port that sent the request. -/
def NoticeKind.ports : NoticeKind → List Port
  | .stateChange | .flywheelRow | .driftLimit | .missedCut | .misregisteredCut | .orphanCut | .rowGone
  | .countMismatch => [.line]
  | .resync | .registerLost | .reversal | .lateGrade => [.line, .inspection]
  | .lateAfterDelivery | .stackStranded | .laneBlocked | .laneUnblocked | .pocketCleared => [.line, .delivery]
  | .stackOffer => [.delivery]
  | .rangeDone => []
  | .jobSwitched | .fault => [.line, .inspection, .delivery]

/-- R175: OFF is 3. -/
def Threshold.code : Threshold → Nat
  | .info => 0 | .warn => 1 | .alarm => 2 | .off => 3

/-- R168: a level code above 3 names no threshold. -/
def thresholdOfCode? (b : Byte) : Option Threshold :=
  if b = 0 then some .info else if b = 1 then some .warn else if b = 2 then some .alarm
  else if b = 3 then some .off else none

/-- Byte 2 of a reply (R173). -/
def SummaryFlags.byte (f : SummaryFlags) : Byte :=
  byteOfBits [f.stalled, f.framing, f.noticeLost, f.refused, f.spuriousMark]

/-- R175. -/
def Stack.flagsByte (k : Stack) : Byte := byteOfBits [k.short, k.untracked, k.interrupted, k.cleared]

/-- R175. -/
def PocketLane.blockByte (l : PocketLane) : Byte := byteOfBits [l.overflow, l.closing]

/-- R175. -/
def PocketLane.deferByte (l : PocketLane) : Byte := byteOfBits [l.deferShort, l.deferUntracked]

/-- The byte that holds the origin and the flags of a row (R175). -/
def Row.flagsByte (r : Row) : Byte :=
  byteOfBits [r.origin.code % 2 = 1, r.origin.code / 2 % 2 = 1, false, false, r.clamped, r.triggered, r.double,
    r.misregistered]

/-- The lane carries a block reason (R87). -/
def PocketLane.blocked (l : PocketLane) : Bool := l.overflow || l.closing

/-- The severity of a grade; VOID has none and is never compared (R78). -/
def Grade.severity : Grade → Nat
  | .pending => 0 | .good => 1 | .minor => 2 | .reject => 3 | .forced => 4 | .void => 0

/-- REJECT and FORCED (R78). -/
def Grade.condemning : Grade → Bool
  | .reject | .forced => true
  | .pending | .good | .minor | .void => false

/-- CUT and MISSED are final (R60). -/
def RowState.settled : RowState → Bool
  | .cut | .missed => true
  | .travelling | .committed => false

/-- TRAVELLING and COMMITTED rows remain to be drained (R42, R43). -/
def RowState.toDrain : RowState → Bool
  | .travelling | .committed => true
  | .cut | .missed => false

/-- The order of the fault kinds (R53). -/
def FaultKind.severity (k : FaultKind) : Nat := k.code

end Sys2Proof.Machine
end

