-- ==== Sys2Proof/Machine/Ops.lean ====
section
/-! DEFINITION. The operations that several blocks share: the ports' queues and slots, replies, the fault record, changes
of tracking state, deadlines, lines and the row and lane records. -/

namespace Sys2Proof.Machine

/-- The port's own state. -/
def State.port (s : State) : Port → PortState
  | .line => s.line
  | .inspection => s.insp
  | .delivery => s.deliv

/-- Replace a port's state. -/
def State.setPort (s : State) (p : Port) (q : PortState) : State :=
  match p with
  | .line => { s with line := q }
  | .inspection => { s with insp := q }
  | .delivery => { s with deliv := q }

/-- Change a port's state. -/
def State.modifyPort (s : State) (p : Port) (f : PortState → PortState) : State := s.setPort p (f (s.port p))

/-- The lane limit that a strap count gives (R3). -/
def limitOfCount (n : BitVec 3) : Nat := if n = 0 ∨ n = 7 then 6 else n.toNat

/-- The lane limit: the latched count, or 6 for the counts 0 and 7 (R3). -/
def State.limit (s : State) : Nat := limitOfCount s.straps.lanes

/-- The number of a slot field or lane carried as one 16-bit figure (R166). -/
def figure (n : Nat) : BitVec 16 := BitVec.ofNat 16 n

/-- A 32-bit value as two figures, low half first (R172). -/
def figures32 (w : Word) : List (BitVec 16) := [w.extractLsb' 0 16, w.extractLsb' 16 16]

/-- R166: append a notice, or drop it and set NOTICE_LOST when the queue holds 16. -/
def PortState.append (q : PortState) (n : Notice) : PortState :=
  if q.notices.length < Config.noticeCapacity then { q with notices := q.notices ++ [n] }
  else { q with flags := { q.flags with noticeLost := true } }

/-- Place a notice in one port's queue (R166). -/
def State.place (s : State) (p : Port) (n : Notice) : State := s.modifyPort p (·.append n)

/-- Place a notice in the queue of each port of its kind (R166, R172). -/
def State.raise (s : State) (n : Notice) : State := n.kind.ports.foldl (fun t p => t.place p n) s

/-- R163: a reply with its code and result; REFUSED is set before the flags are taken, and the request slot empties as
the reply is placed. -/
def State.answer (s : State) (p : Port) (tag : Byte) (code : ReplyCode) (result : List Byte) : State :=
  s.modifyPort p fun q =>
    let f := { q.flags with refused := q.flags.refused || code.refuses }
    { q with request := none, flags := f, reply := some ⟨code, tag, s.trk.state, f, result⟩ }

/-- Change of tracking state with its notice (R38); staying in the same state raises none. -/
def State.enterState (s : State) (t : TrackingState) : State :=
  if s.trk.state = t then s
  else State.raise { s with trk := { s.trk with state := t } }
    ⟨.stateChange, none, none, none, some s.pos.web, [figure t.code]⟩

/-- The record after an offer (R53). -/
def offeredRecord (r : Option FaultRecord) (k : FaultKind) (row : Option Word) (x : Word) : FaultRecord :=
  match r with
  | none => ⟨k, row, x, false⟩
  | some r => if r.kind.severity < k.severity then ⟨k, row, x, true⟩ else { r with more := true }

/-- Offer a fault kind to the fault record (R53). -/
def State.offerFault (s : State) (k : FaultKind) (row : Option Word) (x : Word) : State :=
  { s with trk := { s.trk with fault := some (offeredRecord s.trk.fault k row x) } }

/-- R18: enter a deadline; one whose position the frontier has already reached fires at once. -/
def State.enterDeadline (s : State) (d : Deadline) : State :=
  if 0 ≤ wdiff s.pos.frontier d.position then { s with pos := { s.pos with fired := s.pos.fired ++ [d] } }
  else { s with pos := { s.pos with deadlines := s.pos.deadlines ++ [d] } }

/-- Remove the deadlines that satisfy `p` without firing (R18). -/
def State.dropDeadlines (s : State) (p : DeadlineKind → Bool) : State :=
  { s with pos := { s.pos with
      deadlines := s.pos.deadlines.filter (fun d => !p d.kind)
      fired := s.pos.fired.filter (fun d => !p d.kind) } }

/-- The row a deadline belongs to (R18). -/
def DeadlineKind.row? : DeadlineKind → Option Word
  | .trigger n | .commit n | .missedCut n => some n
  | .flywheel | .triggerOff => none

/-- The flywheel deadline is dropped, and a crossing of it that still waits makes no row (R18, R61). -/
def State.dropFlywheel (s : State) : State :=
  let s := s.dropDeadlines (· = .flywheel)
  { s with pos := { s.pos with flywheelCrossing := none } }

/-- Enter or replace the flywheel deadline (R18, R28). -/
def State.enterFlywheel (s : State) (x : Word) : State := s.dropFlywheel.enterDeadline ⟨x, .flywheel⟩

/-- A FUNCTIONAL line returns to DIVERT or deasserted; a MANUAL line is not driven (R100, R109, R113). -/
def FieldLine.release (l : FieldLine) : FieldLine :=
  if l.mode = .functional then { l with on := false } else l

/-- Every FUNCTIONAL gate returns to DIVERT (R100). -/
def State.gatesToDivert (s : State) : State := { s with kg := { s.kg with gates := s.kg.gates.map (·.release) } }

/-- Every FUNCTIONAL separator is deasserted (R109). -/
def State.releaseSeps (s : State) : State := { s with kg := { s.kg with seps := s.kg.seps.map (·.release) } }

/-- The lane's FUNCTIONAL separator is asserted (R108). -/
def State.assertSep (s : State) (lane : Nat) : State :=
  { s with kg := { s.kg with
      seps := s.kg.seps.modify lane fun l => if l.mode = .functional then { l with on := true } else l } }

/-- Change one row record. -/
def State.modifyRow (s : State) (n : Word) (f : Row → Row) : State :=
  { s with tab := { s.tab with rows := s.tab.rows.map fun r => if r.number = n then f r else r } }

/-- The record of a row, if it is in the table. -/
def State.row? (s : State) (n : Word) : Option Row := s.tab.rows.find? (·.number = n)

/-- The COMMITTED row, if there is one (R60: at most one). -/
def State.committedRow? (s : State) : Option Row := s.tab.rows.find? (·.state = .committed)

/-- Some row is TRAVELLING or COMMITTED (R42, R43). -/
def State.rowsToDrain (s : State) : Bool := s.tab.rows.any (·.state.toDrain)

/-- Change one lane entry of the Pocket Unit. -/
def State.modifyLane (s : State) (lane : Nat) (f : PocketLane → PocketLane) : State :=
  { s with pock := { s.pock with lanes := s.pock.lanes.modify lane f } }

/-- The lane entry of the Pocket Unit, if the lane exists. -/
def State.lane? (s : State) (lane : Nat) : Option PocketLane := s.pock.lanes[lane]?

/-- The open stack of a lane. -/
def State.openStack? (s : State) (lane : Nat) : Option Stack := (s.lane? lane).bind (·.openStack)

/-- The held stack of a lane. -/
def State.heldStack? (s : State) (lane : Nat) : Option Stack := (s.lane? lane).bind (·.heldStack)

/-- Change the held stack of a lane. -/
def State.modifyHeld (s : State) (lane : Nat) (f : Stack → Stack) : State :=
  s.modifyLane lane fun l => { l with heldStack := l.heldStack.map f }

/-- Change the open stack of a lane. -/
def State.modifyOpen (s : State) (lane : Nat) (f : Stack → Stack) : State :=
  s.modifyLane lane fun l => { l with openStack := l.openStack.map f }

/-- The gate of the lane is in MANUAL mode (R85). -/
def State.gateManual (s : State) (lane : Nat) : Bool :=
  match s.kg.gates[lane]? with
  | some l => decide (l.mode = .manual)
  | none => false

/-- The contents of a VALID slot. -/
def State.validJob? (s : State) (n : SlotNumber) : Option Job := (s.jobs.slots[n.val]?).join

/-- What an INVALID slot would read as. No rule reads one: log 11. -/
def Job.blank : Job := ⟨0, 0, 0, 0, 0, 0, 0, 0, 0, 0, 0, .trust, .stack, .stack⟩

/-- The contents of a slot that some rule reads. -/
def State.job (s : State) (n : SlotNumber) : Job := (s.validJob? n).getD Job.blank

/-- The contents of the armed slot (R2); blank when no slot is armed (log 11). -/
def State.armedJob (s : State) : Job :=
  match s.trk.armed with
  | some n => s.job n
  | none => Job.blank

/-- A value that one of the results of RANGE_DONE carries (R172). -/
def RangeEntry.results (e : RangeEntry) : List (BitVec 16) :=
  match e.kind with
  | .force | .overrule => [figure e.applied, figure e.late, figure e.gone]
  | .tally => [figure e.pending, figure e.good, figure e.minor, figure e.condemning, figure e.gone]

/-- RANGE_DONE in the requesting port's queue; status 0 is COMPLETE and 1 ABANDONED (R155, R156, R172). -/
def State.rangeDone (s : State) (e : RangeEntry) (status : Nat) : State :=
  s.place e.port ⟨.rangeDone, some e.first, none, none, some s.pos.web,
    [figure e.number.toNat, figure (e.kind.code + 256 * status), figure e.stepped] ++ e.results⟩

/-- R156: every queued range request is abandoned, and the port-streak count is 0. -/
def State.abandonRanges (s : State) : State :=
  let t := s.rng.queue.foldl (fun t e => t.rangeDone e 1) s
  { t with rng := { t.rng with queue := [] }, tau := { t.tau with streak := 0 } }

/-- RESTART and RESET_TRACKING empty the table, and the deadlines of its rows are dropped (R67). -/
def State.emptyTable (s : State) : State :=
  let s := s.dropDeadlines (fun k => k.row?.isSome)
  { s with tab := { s.tab with rows := [] } }

/-- A creation handed on before a RESTART or RESET_TRACKING makes no row (R61, R77). -/
def TrackingEvent.stale : TrackingEvent → TrackingEvent
  | .mark x _ => .mark x false
  | e => e

/-- The waiting marks are passed by a RESTART or RESET_TRACKING (R61, R77). -/
def State.staleMarks (s : State) : State := { s with tau := { s.tau with events := s.tau.events.map (·.stale) } }

/-- Hand a tracking event on to the Table Access Unit (R71, R72). -/
def State.handEvent (s : State) (e : TrackingEvent) : State :=
  { s with tau := { s.tau with events := s.tau.events ++ [e] } }

/-- A command while RESET_N is low finds the part held in reset and changes nothing (log 4). -/
def State.awake (s : State) (k : State → State) : Result := if s.inReset then .next s else .next (k s)

end Sys2Proof.Machine
end

