-- ==== Sys2Proof/Machine/Operands.lean ====
section
/-! DEFINITION. The operands of requests (lanes, masks, slots, rows) and the parts of results (R68, R175). -/

namespace Sys2Proof.Machine

/-- The lanes that a mask names, lowest first: lane n is bit n (R175). -/
def maskLanes (m : Byte) : List Nat := (List.range 8).filter fun n => m.getLsbD n

/-- The mask of a list of lanes (R175). -/
def laneMask (l : List Nat) : Byte := byteOfBits ((List.range 8).map fun n => decide (n ∈ l))

/-- Every lane that the mask names lies below the lane limit (R81, R134, R150). -/
def State.maskBelowLimit (s : State) (m : Byte) : Bool := (maskLanes m).all fun n => decide (n < s.limit)

/-- The lane exists: it lies below the lane limit (R3), which is at most 6. -/
def State.laneExists (s : State) (lane : Byte) : Bool := decide (lane.toNat < s.limit)

/-- A slot number from 0 to 3. -/
def slotNumber? (b : Byte) : Option SlotNumber := if h : b.toNat < 4 then some ⟨b.toNat, h⟩ else none

/-- What looking up a row number gives (R68). -/
inductive Lookup where
  | found (r : Row)
  | gone
  | notYet
  deriving DecidableEq, Repr

/-- R68: the lookup of a row number, by signed differences. -/
def State.lookup (s : State) (n : Word) : Lookup :=
  match s.tab.rows with
  | [] => if wdiff n s.tab.nextRow < 0 then .gone else .notYet
  | r :: _ =>
    let newest := (s.tab.rows.getLast?.getD r).number
    if wdiff n r.number < 0 then .gone
    else if wdiff n newest ≤ 0 then
      match s.tab.rows[(wdiff n r.number).toNat]? with
      | some x => .found x
      | none => .gone
    else .notYet

/-- R68: a request that finds its row gone is refused, and ROW_GONE is placed in the Line Port's queue. -/
def State.answerRowGone (s : State) (p : Port) (tag : Byte) (row : Word) : State :=
  (s.raise ⟨.rowGone, some row, none, none, none, [figure (portCode p)]⟩).answer p tag .rowGone []

/-- A 16-bit value, least significant byte first (R160). -/
def bytes16 (w : BitVec 16) : List Byte := [w.extractLsb' 0 8, w.extractLsb' 8 8]

/-- A 32-bit value, least significant byte first (R160). -/
def bytes32 (w : Word) : List Byte :=
  [w.extractLsb' 0 8, w.extractLsb' 8 8, w.extractLsb' 16 8, w.extractLsb' 24 8]

/-- A small value as one byte (R175). -/
def byte1 (n : Nat) : List Byte := [BitVec.ofNat 8 n]

/-- A count of two bytes (R175). -/
def nat16 (n : Nat) : List Byte := bytes16 (BitVec.ofNat 16 n)

/-- A flag of one byte. -/
def flag1 (b : Bool) : List Byte := [if b then 1 else 0]

/-- A presence byte, bit 0 for the first value (R175). -/
def presence (l : List Bool) : List Byte := [byteOfBits l]

/-- A row number or position that may be absent; absent is zeros (R175). -/
def optional32 (w : Option Word) : List Byte := bytes32 (w.getD 0)

/-- A stack id that may be absent; absent is zeros (R175). -/
def optional16 (w : Option StackId) : List Byte := bytes16 (w.getD 0)

/-- The stack that an id names, if it is present, with its lane and whether it is the held one (R118). -/
def findStack (id : StackId) : List PocketLane → Nat → Option (Nat × Bool × Stack)
  | [], _ => none
  | l :: ls, lane =>
    match l.openStack, l.heldStack with
    | some k, h =>
      if k.id = id then some (lane, false, k)
      else
        match h with
        | some k => if k.id = id then some (lane, true, k) else findStack id ls (lane + 1)
        | none => findStack id ls (lane + 1)
    | none, some k => if k.id = id then some (lane, true, k) else findStack id ls (lane + 1)
    | none, none => findStack id ls (lane + 1)

/-- The present stack that an id names: its lane, whether it is held, its record (R118, R132). -/
def State.stack? (s : State) (id : StackId) : Option (Nat × Bool × Stack) := findStack id s.pock.lanes 0

end Sys2Proof.Machine
end

