-- ==== Sys2Proof/Machine/Frames.lean ====
section
/-! DEFINITION. The exchange and the frames (spec/10_link_ports_frames_and_notices.md, R160 to R164, R171, R174). -/

namespace Sys2Proof.Machine

/-- The kind code of a request (R171). -/
def requestCode : Request → Nat
  | .takeNotice _ => 1 | .peekNotice _ => 2 | .fetchSummary => 3 | .setAttention _ => 4 | .portClear => 5
  | .readStatus _ => 6 | .readRow _ _ => 7 | .readStack _ _ => 8 | .readLane _ _ => 9 | .rangeTally _ _ _ => 10
  | .rangeForce _ _ _ => 11 | .rangeOverrule _ _ _ => 12 | .jobLoadPart _ => 13 | .jobLoad _ => 13
  | .jobSwitch _ _ => 14 | .arm _ => 15 | .disarm => 16 | .restart => 17 | .resetTracking => 18 | .faultClear => 19
  | .readFault => 20 | .lineMode _ _ _ => 21 | .lineSet _ _ => 22 | .lineClear _ _ => 23 | .clearPocket _ _ => 24
  | .clearTallies _ => 25 | .grade _ _ _ => 26 | .triggerRow => 27 | .accept _ _ => 28 | .decline _ => 29
  | .setOfferWindow _ => 30

/-- The kind code is in the request catalogue (R171). -/
def kindKnown (code : Nat) : Bool := decide (code ≤ 30)

/-- The port may send the kind (R171). -/
def kindPermitted (code : Nat) : Port → Bool
  | .line => decide (code ≤ 25)
  | .inspection => decide (code ≤ 11 ∨ code = 26 ∨ code = 27)
  | .delivery => decide (code ≤ 10 ∨ 28 ≤ code)

/-- The kinds that wait at the Table Access Unit (R75, R171). -/
def needsGrant : Request → Bool
  | .readStatus _ | .readRow _ _ | .rangeTally _ _ _ | .rangeForce _ _ _ | .rangeOverrule _ _ _ | .grade _ _ _ => true
  | _ => false

/-- R163: the form is sound: a GRADE list is as long as its mask names lanes (R174), and a second JOB_LOAD part finds a
first part with its tag in the part buffer (R164). -/
def formSound (held : Option PartBuffer) (t : Taken) : Bool :=
  match t.request with
  | .grade _ mask grades => decide (grades.length = (maskLanes mask).length)
  | .jobLoad _ => held.any fun b => decide (b.tag = t.tag)
  | _ => true

/-- The byte at a place of a frame. -/
def frameByte (f : List Byte) (n : Nat) : Byte := f.getD n 0

/-- A two-byte field, least significant byte first (R160). -/
def field16 (f : List Byte) (n : Nat) : BitVec 16 := frameByte f (n + 1) ++ frameByte f n

/-- A three-byte field, least significant byte first (R160). -/
def field24 (f : List Byte) (n : Nat) : BitVec 24 := frameByte f (n + 2) ++ field16 f n

/-- A four-byte field, least significant byte first (R160). -/
def field32 (f : List Byte) (n : Nat) : Word := frameByte f (n + 3) ++ field24 f n

/-- The first JOB_LOAD part of a frame (R174). -/
def jobPartOf (f : List Byte) : JobPart := ⟨frameByte f 3, field24 f 4, field24 f 7, field24 f 10, field24 f 13⟩

/-- The second JOB_LOAD part of a frame (R174). -/
def jobRestOf (f : List Byte) : JobRest :=
  ⟨field16 f 3, field24 f 5, field16 f 8, frameByte f 10, frameByte f 11, frameByte f 12, frameByte f 13,
    frameByte f 14⟩

/-- The part that a JOB_LOAD frame carries; none where the part number is neither 1 nor 2 (R164). -/
def jobLoadOf (f : List Byte) : Option Request :=
  if frameByte f 2 = 1 then some (.jobLoadPart (jobPartOf f))
  else if frameByte f 2 = 2 then some (.jobLoad (jobRestOf f))
  else none

/-- The request of a GRADE frame; none where the list length differs from the number of lanes in the mask (R174). -/
def gradeOf (f : List Byte) : Option Request :=
  if (frameByte f 7).toNat = (maskLanes (frameByte f 6)).length then
    some (.grade (field32 f 2) (frameByte f 6) ((List.range (frameByte f 7).toNat).map fun i => frameByte f (8 + i)))
  else none

/-- The request that a frame of a known, permitted kind carries; none where the frame itself is not sound (R163, R164,
R171, R174). -/
def requestOf (f : List Byte) : Option Request :=
  match (frameByte f 0).toNat with
  | 1 => some (.takeNotice (frameByte f 2))
  | 2 => some (.peekNotice (frameByte f 2))
  | 3 => some .fetchSummary
  | 4 => some (.setAttention (frameByte f 2))
  | 5 => some .portClear
  | 6 => some (.readStatus (frameByte f 2))
  | 7 => some (.readRow (field32 f 2) (frameByte f 6))
  | 8 => some (.readStack (field16 f 2) (frameByte f 4))
  | 9 => some (.readLane (frameByte f 2) (frameByte f 3))
  | 10 => some (.rangeTally (field32 f 2) (field16 f 6) (frameByte f 8))
  | 11 => some (.rangeForce (field32 f 2) (field16 f 6) (frameByte f 8))
  | 12 => some (.rangeOverrule (field32 f 2) (field16 f 6) (frameByte f 8))
  | 13 => jobLoadOf f
  | 14 => some (.jobSwitch (frameByte f 2) (field32 f 3))
  | 15 => some (.arm (frameByte f 2))
  | 16 => some .disarm
  | 17 => some .restart
  | 18 => some .resetTracking
  | 19 => some .faultClear
  | 20 => some .readFault
  | 21 => some (.lineMode (frameByte f 2) (frameByte f 3) (frameByte f 4))
  | 22 => some (.lineSet (frameByte f 2) (frameByte f 3))
  | 23 => some (.lineClear (frameByte f 2) (frameByte f 3))
  | 24 => some (.clearPocket (frameByte f 2) (frameByte f 3))
  | 25 => some (.clearTallies (frameByte f 2))
  | 26 => gradeOf f
  | 27 => some .triggerRow
  | 28 => some (.accept (field16 f 2) (if frameByte f 4 = 0 then none else some (field16 f 5)))
  | 29 => some (.decline (field16 f 2))
  | 30 => some (.setOfferWindow (field16 f 2))
  | _ => none

/-- R164: a frame taken on the Line Port empties the part buffer before it is handled. -/
def State.emptyPartBuffer (s : State) (p : Port) : State := if p = .line then { s with partBuffer := none } else s

/-- A reply without a result, with the state and flags that stand now (R161). -/
def State.plainReply (s : State) (p : Port) (code : ReplyCode) (tag : Byte) : Reply :=
  ⟨code, tag, s.trk.state, (s.port p).flags, []⟩

/-- R161: the frame that the port drives out when the select falls. -/
def State.driven (s : State) (p : Port) : Exchange :=
  match (s.port p).reply, (s.port p).request with
  | some r, _ => ⟨.reply, r⟩
  | none, some t => ⟨.stall, s.plainReply p .stall t.tag⟩
  | none, none => ⟨.idle, s.plainReply p .idle 0⟩

/-- R160, R161: the select falls and the exchange begins; a select that is low already does not fall. -/
def State.beginExchange (s : State) (p : Port) : State :=
  match (s.port p).exchange with
  | some _ => s
  | none => s.modifyPort p fun q => { q with exchange := some (s.driven p) }

/-- R161: an exchange with at least 16 bytes ends; a reply that it drove out leaves the reply slot. -/
def State.closeExchange (s : State) (p : Port) (x : Exchange) : State :=
  s.modifyPort p fun q =>
    { q with exchange := none, reply := if x.driven = .reply then none else q.reply }

/-- R162: a frame offered while the exchange drove out STALL is discarded. -/
def State.stalledDiscard (s : State) (p : Port) : State :=
  s.modifyPort p fun q => { q with flags := { q.flags with stalled := true } }

/-- R162: fewer than 16 bytes were clocked; the frame is discarded and a reply stays in its slot. -/
def State.framingError (s : State) (p : Port) : State :=
  s.modifyPort p fun q => { q with exchange := none, flags := { q.flags with framing := true } }

/-- The bytes of the bits clocked in, the most significant bit of each byte first (R160); a byte not complete is left
out. -/
def clockedBytes : List Bool → List Byte
  | a :: b :: c :: d :: e :: f :: g :: h :: rest => byteOfBits [h, g, f, e, d, c, b, a] :: clockedBytes rest
  | _ => []

end Sys2Proof.Machine
end

