-- ==== Sys2Proof/Machine/Arbiter.lean ====
section
/-! DEFINITION. The arbitration of the Table Access Unit (spec/04_the_row_table.md, R71 to R75). -/

namespace Sys2Proof.Machine

/-- Whom the Table Access Unit serves next. -/
inductive Grant where
  | event
  | port (p : Port)
  | range
  deriving DecidableEq, Repr

/-- The port after a port in the turn Line, Inspection, Delivery (R73). -/
def nextPort : Port → Port
  | .line => .inspection
  | .inspection => .delivery
  | .delivery => .line

/-- The port's request slot holds a request that waits for a grant (R73, R75). -/
def State.portWaits (s : State) (p : Port) : Bool :=
  match (s.port p).request with
  | some t => needsGrant t.request
  | none => false

/-- The first port in turn, from the round-robin pointer, whose request waits (R73). -/
def State.portInTurn? (s : State) : Option Port :=
  let a := s.tau.pointer
  if s.portWaits a then some a
  else if s.portWaits (nextPort a) then some (nextPort a)
  else if s.portWaits (nextPort (nextPort a)) then some (nextPort (nextPort a))
  else none

/-- The head's next step is presented: its row is no longer waiting to be created and the tracker is not in FAULT
(R151). -/
def State.rangeReady (s : State) : Bool :=
  match s.rng.queue with
  | [] => false
  | e :: _ => decide (wdiff e.next s.tab.nextRow < 0) && decide (s.trk.state ≠ .fault)

/-- The next grant (R72 to R74): tracking events first, then port requests in turn, the range step when no port request
waits or the port-streak count stands at 8. -/
def State.nextGrant (s : State) : Option Grant :=
  if s.tau.events ≠ [] then some .event
  else
    match s.portInTurn? with
    | none => if s.rangeReady then some .range else none
    | some p => if s.rangeReady ∧ s.tau.streak = Config.streakLimit then some .range else some (.port p)

/-- The arbiter's own state after a port request is served (R73, R74). -/
def State.portServed (s : State) (p : Port) : State :=
  { s with tau := { s.tau with
      pointer := nextPort p
      streak := if s.rangeReady then s.tau.streak + 1 else s.tau.streak } }

end Sys2Proof.Machine
end

