-- ==== Sys2Proof/Machine/Links.lean ====
section
/-! DEFINITION. The requests that each port carries out for itself
(spec/10_link_ports_frames_and_notices.md, R165 to R169, R175). -/

namespace Sys2Proof.Machine

/-- The presence bits of a notice (R175). -/
def Notice.presenceBits (n : Notice) : List Bool :=
  [n.kind.level % 2 = 1, n.kind.level / 2 % 2 = 1, n.row.isSome, n.stack.isSome, n.lane.isSome, n.position.isSome]

/-- The page of a notice as R175 lays it out. -/
def Notice.page (n : Notice) (page : Nat) : List Byte :=
  match page with
  | 0 => byte1 n.kind.code ++ presence n.presenceBits ++ optional32 n.row ++ optional32 n.position ++
      optional16 n.stack ++ byte1 (n.lane.getD 0)
  | 1 => byte1 n.values.length ++ ((n.values ++ List.replicate 6 0).take 6).flatMap bytes16
  | _ => byte1 n.values.length ++ (((n.values.drop 6) ++ List.replicate 2 0).take 2).flatMap bytes16

/-- R167: the page of the oldest notice is returned, and TAKE_NOTICE then removes it. -/
def State.readNotice (s : State) (p : Port) (tag page : Byte) (remove : Bool) : State :=
  if 2 < page.toNat then s.answer p tag .badArg []
  else
    match (s.port p).notices with
    | [] => s.answer p tag .nothing []
    | n :: rest =>
      (s.modifyPort p fun q => { q with notices := if remove then rest else q.notices }).answer p tag .done
        (n.page page.toNat)

/-- TAKE_NOTICE (R167). -/
def State.takeNoticeRequest (s : State) (port : Port) (tag page : Byte) : State :=
  s.readNotice port tag page true

/-- PEEK_NOTICE (R167). -/
def State.peekNoticeRequest (s : State) (port : Port) (tag page : Byte) : State :=
  s.readNotice port tag page false

/-- FETCH_SUMMARY: the flags are reported, in the header as well, and then cleared (R165). -/
def State.fetchSummaryRequest (s : State) (port : Port) (tag : Byte) : State :=
  (s.answer port tag .done [(s.port port).flags.byte]).modifyPort port fun q => { q with flags := .clear }

/-- SET_ATTENTION (R168). -/
def State.setAttentionRequest (s : State) (port : Port) (tag level : Byte) : State :=
  match thresholdOfCode? level with
  | none => s.answer port tag .badArg []
  | some t => (s.modifyPort port fun q => { q with threshold := t }).answer port tag .done []

/-- R169: the port's slots, queue and flags are emptied and its threshold returns to WARN. -/
def State.clearPort (s : State) (p : Port) : State :=
  (s.modifyPort p fun q =>
    { q with request := none, reply := none, notices := [], flags := .clear, threshold := .warn }).emptyPartBuffer p

/-- PORT_CLEAR (R169). -/
def State.portClearRequest (s : State) (port : Port) (tag : Byte) : State :=
  (s.clearPort port).answer port tag .done []

end Sys2Proof.Machine
end

