-- ==== Sys2Proof/Machine/Pockets.lean ====
section
/-! DEFINITION. Stacks and the offer cycle (spec/07_pockets_stacks_and_lane_tallies.md, spec/08_delivery_hand_off.md). -/

namespace Sys2Proof.Machine

/-- The id above an id, or 1 after 65,535 (R119). -/
def nextStackId (i : StackId) : StackId := if i = 65535 then 1 else i + 1

/-- The ids of the stacks present in a lane. -/
def PocketLane.ids (l : PocketLane) : List StackId := (l.openStack.map (·.id)).toList ++ (l.heldStack.map (·.id)).toList

/-- The ids of the stacks present in any lane (R119). -/
def State.presentIds (s : State) : List StackId := s.pock.lanes.flatMap (·.ids)

/-- R119: the first id offered from `i` on that no present stack holds. Among `fuel + 1` successive ids one is free when
`fuel` stacks are present. -/
def freeId (present : List StackId) : Nat → StackId → StackId
  | 0, i => i
  | fuel + 1, i => if i ∈ present then freeId present fuel (nextStackId i) else i

/-- The id that the next opening takes (R119). -/
def State.openingId (s : State) : StackId := freeId s.presentIds s.presentIds.length s.pock.nextId

/-- A stack as it opens (R118). -/
def Stack.fresh (id : StackId) (lane : Nat) (slot : SlotNumber) (target : Nat) : Stack :=
  ⟨id, lane, slot, target, 0, 0, none, none, false, false, false, false, [], false, .opened, 0, none⟩

/-- R120: a new open stack opens in the lane under a slot and a target. -/
def State.openNew (s : State) (lane : Nat) (slot : SlotNumber) (target : Nat) : State :=
  let id := s.openingId
  let s := s.modifyLane lane fun l => { l with openStack := some (Stack.fresh id lane slot target) }
  { s with pock := { s.pock with nextId := nextStackId id } }

/-- R120: the slot and target of a new open stack: the plan in force, or those of the stack it replaces. The contents of
the slot are read at the opening, so a JOB_LOAD of the slot that is still the plan in force, which R4 admits in IDLE and in
FAULT entered from IDLE (R13, R48), acts at the next opening. DESIGN CHOICE (log 28): R6 and R120 do not settle that case
together. -/
def State.planFor (s : State) (replaced : Stack) : SlotNumber × Nat :=
  match s.jobs.plan with
  | some n => (n, (s.job n).target)
  | none => (replaced.slot, replaced.target)

/-- The two figures of a stack's count and flags (R172). -/
def Stack.countFigures (k : Stack) : List (BitVec 16) := [figure k.count, figure k.flagsByte.toNat]

/-- STACK_OFFER in the Delivery Port's queue (R137). -/
def State.offerNotice (s : State) (lane : Nat) (k : Stack) : State :=
  s.raise ⟨.stackOffer, none, some k.id, some lane, some s.pos.web, k.countFigures⟩

/-- R137: the stack becomes the lane's held stack and is offered. -/
def State.holdStack (s : State) (lane : Nat) (k : Stack) : State :=
  let k := { k with state := .offered, declines := 0, remaining := some s.offerSetting }
  (s.modifyLane lane fun l => { l with heldStack := some k }).offerNotice lane k

/-- LANE_BLOCKED with the block reasons now standing (R125). -/
def State.laneBlocked (s : State) (lane : Nat) (row : Option Word) : State :=
  s.raise ⟨.laneBlocked, row, none, some lane, some s.pos.web,
    [figure (((s.lane? lane).map PocketLane.blockByte).getD 0).toNat]⟩

/-- A block reason is set; LANE_BLOCKED is raised when the lane carried none (R125). -/
def State.block (s : State) (lane : Nat) (row : Option Word) (f : PocketLane → PocketLane) : State :=
  let was := ((s.lane? lane).map (·.blocked)).getD false
  let s := s.modifyLane lane f
  if was then s else s.laneBlocked lane row

/-- R123: the open stack completes; the separator is asserted, the stack is held and offered, a new one opens. -/
def State.completeStack (s : State) (lane : Nat) : State :=
  match s.openStack? lane with
  | none => s
  | some k =>
    let s := (s.assertSep lane).holdStack lane k
    let plan := s.planFor k
    s.openNew lane plan.1 plan.2

/-- R126: a closure takes effect at once. `fromReset` is a closure asked for by RESET_TRACKING; `plan` is the slot and
target of the new open stack. -/
def State.closeNow (s : State) (lane : Nat) (k : Stack) (fromReset : Bool) (plan : SlotNumber × Nat) : State :=
  let s := if fromReset then s else s.assertSep lane
  let s := s.holdStack lane { k with short := true, untracked := k.untracked || fromReset }
  s.openNew lane plan.1 plan.2

/-- R126: a closure is deferred; the lane takes CLOSING and the deferred-closure flags. -/
def State.deferClosure (s : State) (lane : Nat) (fromReset : Bool) (row : Option Word) : State :=
  s.block lane row fun l =>
    { l with closing := true, deferShort := true, deferUntracked := l.deferUntracked || fromReset }

/-- R126: a closure of the lane's open stack is asked for. `newPlan` is given at a plan switch's commit (R11, R120). -/
def State.closeLane (s : State) (fromReset : Bool) (row : Option Word) (newPlan : Option (SlotNumber × Nat))
    (lane : Nat) : State :=
  match s.openStack? lane with
  | none => s
  | some k =>
    if k.count = 0 then s
    else
      match s.heldStack? lane with
      | some _ => s.deferClosure lane fromReset row
      | none => s.closeNow lane k fromReset (newPlan.getD (s.planFor k))

/-- A closure is asked for in every lane, in ascending order (R44, R52; DEDUCED, log 29). -/
def State.closeAll (s : State) (fromReset : Bool) : State :=
  (List.range s.limit).foldl (fun t lane => t.closeLane fromReset none none lane) s

/-- Step 2 of R127: the deferred closure takes effect. -/
def State.closeDeferred (s : State) (lane : Nat) : State :=
  match s.lane? lane with
  | none => s
  | some l =>
    match l.closing, l.openStack with
    | true, some k =>
      let s := if l.deferUntracked then s else s.assertSep lane
      let s := s.holdStack lane
        { k with short := k.short || l.deferShort, untracked := k.untracked || l.deferUntracked }
      let plan := s.planFor k
      (s.openNew lane plan.1 plan.2).modifyLane lane fun l =>
        { l with closing := false, deferShort := false, deferUntracked := false }
    | _, _ => s

/-- LANE_UNBLOCKED with the id of the stack whose removal ended the block (R125). -/
def State.laneUnblocked (s : State) (lane : Nat) (id : StackId) : State :=
  s.raise ⟨.laneUnblocked, none, some id, some lane, some s.pos.web, []⟩

/-- R127: the lane's held stack is removed. `wasBlocked` says that the lane carried a block reason before the request. -/
def State.removeHeld (s : State) (lane : Nat) (wasBlocked : Bool) : State :=
  match s.heldStack? lane with
  | none => s
  | some k =>
    let s := s.modifyLane lane fun l => { l with heldStack := none }
    let s := (s.closeDeferred lane).modifyLane lane fun l => { l with overflow := false }
    if wasBlocked && !(((s.lane? lane).map (·.blocked)).getD false) then s.laneUnblocked lane k.id else s

/-- POCKET_CLEARED for a stack that leaves with CLEARED (R129, R130). -/
def State.pocketCleared (s : State) (lane : Nat) (k : Stack) : State :=
  s.raise ⟨.pocketCleared, none, some k.id, some lane, none, { k with cleared := true }.countFigures⟩

/-- R122: a row is added to a suspect list. -/
def Stack.addSuspect (k : Stack) (row : Word) : Stack :=
  if row ∈ k.suspects then k
  else if k.suspects.length < Config.suspectCapacity then { k with suspects := k.suspects ++ [row] }
  else { k with overflowed := true }

/-- Steps 2 and 3 of R121: a label is counted into a stack. -/
def Stack.countLabel (k : Stack) (row : Word) (minor : Bool) : Stack :=
  { k with
    count := k.count + 1
    minor := if minor then k.minor + 1 else k.minor
    firstRow := if k.count = 0 then some row else k.firstRow
    lastRow := some row }

/-- R141: a decline is counted; the sixth strands the stack. -/
def Stack.declined (k : Stack) : Stack :=
  let n := k.declines + 1
  if n < Config.strandingDeclines then { k with declines := n, state := .backoff, remaining := some (2 ^ n) }
  else { k with declines := n, state := .stranded, remaining := none }

/-- R141, R142: the lane's held stack is declined; STACK_STRANDED is raised when that strands it. -/
def State.declineHeld (s : State) (lane : Nat) : State :=
  match s.heldStack? lane with
  | none => s
  | some k =>
    let k := k.declined
    let s := s.modifyHeld lane fun _ => k
    if k.state = .stranded then
      s.raise ⟨.stackStranded, none, some k.id, some lane, some s.pos.web, k.countFigures⟩
    else s

/-- R141: the lane's held stack is offered again. -/
def State.reofferHeld (s : State) (lane : Nat) : State :=
  match s.heldStack? lane with
  | none => s
  | some k =>
    let k := { k with state := .offered, remaining := some s.offerSetting }
    (s.modifyHeld lane fun _ => k).offerNotice lane k

/-- R140: the window of an OFFERED stack that has reached 0 expires. -/
def State.expireOffer (s : State) (lane : Nat) : State :=
  match s.heldStack? lane with
  | some k => if k.state = .offered ∧ k.remaining = some 0 then s.declineHeld lane else s
  | none => s

/-- R141: a BACKOFF stack whose wait has reached 0 is offered again. -/
def State.expireBackoff (s : State) (lane : Nat) : State :=
  match s.heldStack? lane with
  | some k => if k.state = .backoff ∧ k.remaining = some 0 then s.reofferHeld lane else s
  | none => s

/-- R138: one cut is counted for the lane's held stack. -/
def State.countCutLane (s : State) (lane : Nat) : State :=
  match s.heldStack? lane with
  | none => s
  | some k =>
    let t := s.modifyHeld lane fun k => { k with remaining := k.remaining.map (· - 1) }
    match k.state with
    | .offered => t.expireOffer lane
    | .backoff => t.expireBackoff lane
    | .stranded | .opened => s

/-- R138: one cut is handed to the Delivery Unit, for every held stack. DESIGN CHOICE (log 24): the lanes are taken in
ascending order, so the STACK_OFFER and STACK_STRANDED notices of one cut stand in that order. -/
def State.countCut (s : State) : State := (List.range s.limit).foldl (fun t lane => t.countCutLane lane) s

/-- R7: a lane's open stack is re-planned at ARM, or opened if the lane has none. -/
def State.replanLane (s : State) (slot : SlotNumber) (lane : Nat) : State :=
  match s.openStack? lane with
  | none => if lane < s.pock.lanes.length then s.openNew lane slot (s.job slot).target else s
  | some k =>
    if k.count = 0 then s.modifyOpen lane fun k => { k with slot := slot, target := (s.job slot).target } else s

/-- R7: the open stacks are re-planned at ARM, lane by lane in ascending order (DEDUCED, log 29). -/
def State.replanAll (s : State) (slot : SlotNumber) : State :=
  (List.range s.limit).foldl (fun t lane => t.replanLane slot lane) s

/-- R51, R52, R128: every lane's pending count returns to 0. -/
def State.clearPending (s : State) : State :=
  { s with pock := { s.pock with lanes := s.pock.lanes.map fun l => { l with pendingCount := 0 } } }

end Sys2Proof.Machine
end

