-- ==== Sys2Proof/Machine/Grades.lean ====
section
/-! DEFINITION. The severity merge and the late-grade rule (spec/05_grades_and_the_commit_decision.md). -/

namespace Sys2Proof.Machine

/-- The higher of two grades by severity; the stored one when they are equal, and VOID stays VOID (R80). -/
def mergeGrade (stored new : Grade) : Grade :=
  if stored = .void then .void else if stored.severity < new.severity then new else stored

/-- A late merge onto `stored` is a late reject: it raises it from below REJECT to a condemning grade (R90). -/
def lateReject (stored new : Grade) : Bool :=
  decide (stored ≠ .void) && !stored.condemning && new.condemning

/-- The lane entry after a merge into a row in state `st` (R80, R91). -/
def RowLane.merge (st : RowState) (c : RowLane) (new : Grade) : RowLane :=
  { c with
    grade := mergeGrade c.grade new
    late := c.late || (lateReject c.grade new && decide (st = .committed) && decide (c.disposition = some .stack)) }

/-- A row after the merge of the grades that `g` gives its lanes; a lane without one is left as it is (R82). -/
def Row.merge (r : Row) (g : Nat → Option Grade) : Row :=
  { r with lanes := r.lanes.mapIdx fun i c =>
      match g i with
      | some new => c.merge r.state new
      | none => c }

/-- The lanes that a merge makes late rejects, ascending: none on a TRAVELLING row (R90). -/
def Row.lateLanes (r : Row) (g : Nat → Option Grade) : List Nat :=
  if r.state = .travelling then []
  else (List.range r.lanes.length).filter fun i =>
    match r.lanes[i]?, g i with
    | some c, some new => lateReject c.grade new
    | _, _ => false

/-- The lanes with a grade to merge that are VOID in the row, ascending (R80, R82). -/
def Row.voidLanes (r : Row) (g : Nat → Option Grade) : List Nat :=
  (List.range r.lanes.length).filter fun i =>
    match r.lanes[i]?, g i with
    | some c, some _ => decide (c.grade = .void)
    | _, _ => false

/-- The stack that a late reject on a lane of a CUT row is routed to (R92). -/
def Row.routedStack? (r : Row) (lane : Nat) : Option StackId :=
  match r.lanes[lane]? with
  | some c => if r.state = .cut ∧ c.disposition = some .stack then c.stack else none
  | none => none

/-- The stack is the lane's open or held stack (R92). -/
def State.stackInLane (s : State) (lane : Nat) (id : StackId) : Bool :=
  match s.lane? lane with
  | some l => decide (id ∈ l.ids)
  | none => false

/-- Add a row to the suspect list of the lane's stack with this id (R92, R122). -/
def State.addSuspect (s : State) (lane : Nat) (id : StackId) (row : Word) : State :=
  s.modifyLane lane fun l =>
    let add := fun k : Stack => if k.id = id then k.addSuspect row else k
    { l with openStack := l.openStack.map add, heldStack := l.heldStack.map add }

/-- A late reject of a lane is tallied and, on a CUT row, routed to its stack (R90, R92, R93). -/
def State.routeLate (r : Row) (s : State) (lane : Nat) : State :=
  let s := s.modifyLane lane fun l => { l with lateRejects := l.lateRejects + 1 }
  match r.routedStack? lane with
  | some id => if s.stackInLane lane id then s.addSuspect lane id r.number else s
  | none => s

/-- LATE_AFTER_DELIVERY for a late reject whose stack is not present (R92, R94). -/
def State.warnDelivered (r : Row) (s : State) (lane : Nat) : State :=
  match r.routedStack? lane with
  | some id =>
    if s.stackInLane lane id then s
    else s.raise ⟨.lateAfterDelivery, some r.number, some id, some lane, some s.pos.web, []⟩
  | none => s

/-- The late rejects of one row are tallied, routed and reported (R90, R93, R94). -/
def State.reportLate (s : State) (r : Row) (late : List Nat) : State :=
  if late = [] then s
  else
    let s := late.foldl (State.routeLate r) s
    let s := s.raise ⟨.lateGrade, some r.number, none, none, some s.pos.web, [figure (laneMask late).toNat]⟩
    late.foldl (State.warnDelivered r) s

/-- The merge of grades into one row, with the late-grade rule (R80, R82, R90). -/
def State.mergeRow (s : State) (r : Row) (g : Nat → Option Grade) : State :=
  (s.modifyRow r.number fun x => x.merge g).reportLate r (r.lateLanes g)

end Sys2Proof.Machine
end

