-- ==== Sys2Proof/Machine/Ranges.lean ====
section
/-! DEFINITION. The Range Unit (spec/09_range_operations.md). -/

namespace Sys2Proof.Machine

/-- The grade that a FORCE step merges into the masked lanes (R152). -/
def forcedOn (mask : Byte) (lane : Nat) : Option Grade := if mask.getLsbD lane then some .forced else none

/-- The lane entry after an OVERRULE step: REJECT is lowered to GOOD (R153). -/
def RowLane.overrule (c : RowLane) : RowLane := if c.grade = .reject then { c with grade := .good } else c

/-- A row after an OVERRULE step on the masked lanes (R153). -/
def Row.overrule (r : Row) (mask : Byte) : Row :=
  { r with lanes := r.lanes.mapIdx fun i c => if mask.getLsbD i then c.overrule else c }

/-- The masked lanes of a row that hold a grade for which `p` holds (R154). -/
def Row.countGrades (r : Row) (mask : Byte) (p : Grade → Bool) : Nat :=
  (List.range r.lanes.length).countP fun i =>
    match r.lanes[i]? with
    | some c => mask.getLsbD i && p c.grade
    | none => false

/-- The counts of an entry after a TALLY step on a row (R154). -/
def RangeEntry.tallyRow (e : RangeEntry) (r : Row) : RangeEntry :=
  { e with
    pending := e.pending + r.countGrades e.mask (· = .pending)
    good := e.good + r.countGrades e.mask (· = .good)
    minor := e.minor + r.countGrades e.mask (· = .minor)
    condemning := e.condemning + r.countGrades e.mask Grade.condemning }

/-- The applied or late count after a FORCE or OVERRULE step (R152, R153). -/
def RangeEntry.countRow (e : RangeEntry) (r : Row) : RangeEntry :=
  if r.state = .travelling then { e with applied := e.applied + 1 } else { e with late := e.late + 1 }

/-- The rows and counts after the head's step on a row that is found (R152 to R154). -/
def State.stepFound (s : State) (e : RangeEntry) (r : Row) : State × RangeEntry :=
  match e.kind with
  | .force => (s.mergeRow r (forcedOn e.mask), e.countRow r)
  | .overrule =>
    (if r.state = .travelling then s.modifyRow r.number (·.overrule e.mask) else s, e.countRow r)
  | .tally => (s, e.tallyRow r)

/-- The head's step on its next row (R151). -/
def State.stepRow (s : State) (e : RangeEntry) : State × RangeEntry :=
  match s.lookup e.next with
  | .found r => s.stepFound e r
  | .gone => (s, { e with gone := e.gone + 1 })
  | .notYet => (s, e)

/-- The queue is replaced. -/
def State.withQueue (s : State) (q : List RangeEntry) : State := { s with rng := { s.rng with queue := q } }

/-- R151, R155: one step of the head request, which completes at its last row. -/
def State.stepHead (s : State) (e : RangeEntry) (rest : List RangeEntry) : State :=
  let se := s.stepRow e
  let e : RangeEntry := { se.2 with stepped := se.2.stepped + 1, next := se.2.next + 1 }
  if e.stepped = e.length then (se.1.withQueue rest).rangeDone e 0 else se.1.withQueue (e :: rest)

/-- RANGE_STEP: the step of the head request, when it holds the grant (R74, R151). -/
def execRangeStep (s : State) : Result :=
  s.awake fun s =>
    if s.nextGrant = some .range then
      match s.rng.queue with
      | [] => s
      | e :: rest => State.stepHead { s with tau := { s.tau with streak := 0 } } e rest
    else s

/-- The first failing check of a range request (R150). -/
def State.rangeRefusal? (s : State) (first : Word) (length : BitVec 16) (mask : Byte) : Option ReplyCode :=
  if length.toNat = 0 ∨ 256 < length.toNat then some .badArg
  else if mask = 0 ∨ !s.maskBelowLimit mask then some .badArg
  else if Config.rangeReach < wdiff first (s.tab.nextRow - 1) then some .badArg
  else if Config.rangeCapacity ≤ s.rng.queue.length then some .rangeQueueFull
  else none

/-- R149, R150: a range request is checked and joins the queue, or is refused. -/
def State.requestRange (s : State) (p : Port) (tag : Byte) (kind : RangeKind) (first : Word) (length : BitVec 16)
    (mask : Byte) : State :=
  match s.rangeRefusal? first length mask with
  | some c => s.answer p tag c []
  | none =>
    let e : RangeEntry := ⟨kind, p, s.rng.number, first, length.toNat, mask, first, 0, 0, 0, 0, 0, 0, 0, 0⟩
    let s := { s with rng := ⟨s.rng.queue ++ [e], s.rng.number + 1⟩ }
    s.answer p tag .started (byte1 e.number.toNat ++ byte1 s.rng.queue.length)

end Sys2Proof.Machine
end

