-- ==== Sys2Proof/Machine/Reads.lean ====
section
/-! DEFINITION. The requests that read the controller's state and the layout of their pages
(R14, R36, R55, R69, R132, R134, R175). -/

namespace Sys2Proof.Machine

/-- The position of the pending flywheel deadline (R36). -/
def State.flywheelDeadline? (s : State) : Option Word :=
  (s.pos.deadlines.find? (·.kind = .flywheel)).map (·.position)

/-- A slot number as one byte; absent is 0. -/
def slotByte (n : Option SlotNumber) : List Byte := byte1 ((n.map (·.val)).getD 0)

/-- The validity of the four slots: bit n is set when slot n is VALID (R175). -/
def State.validityByte (s : State) : Byte := byteOfBits (s.jobs.slots.map (·.isSome))

/-- The page of the status (R55). -/
def State.statusPage (s : State) (page : Nat) : List Byte :=
  match page with
  | 0 => presence [s.trk.armed.isSome] ++ byte1 s.trk.state.code ++ slotByte s.trk.armed ++
      byte1 ((s.trk.fault.map (·.kind.code)).getD 0) ++ flag1 ((s.trk.fault.map (·.more)).getD false) ++
      bytes32 s.tab.nextRow
  | 1 => bytes32 s.pos.web ++ bytes32 s.pos.frontier
  | 2 => bytes32 (BitVec.ofInt 32 s.trk.oSync) ++ bytes32 (BitVec.ofInt 32 s.trk.offset)
  | 3 => bytes32 (BitVec.ofNat 32 s.trk.rm) ++ bytes32 (BitVec.ofNat 32 s.trk.oi)
  | 4 => bytes16 (BitVec.ofInt 16 s.trk.ef) ++ byte1 s.trk.miss ++ bytes32 s.trk.pmLast
  | 5 => presence [s.flywheelDeadline?.isSome, !s.tab.rows.isEmpty] ++ optional32 s.flywheelDeadline? ++
      optional32 (s.tab.rows.head?.map (·.number)) ++ optional32 (s.tab.rows.getLast?.map (·.number))
  | 6 => presence [s.jobs.plan.isSome] ++ byte1 s.limit ++ [s.validityByte] ++ slotByte s.jobs.plan
  | _ => presence [s.jobs.scheduled.isSome, s.jobs.carried.isSome] ++ slotByte (s.jobs.scheduled.map (·.slot)) ++
      optional32 (s.jobs.scheduled.map (·.atRow)) ++ slotByte (s.jobs.carried.map (·.previous)) ++
      slotByte (s.jobs.carried.map (·.new)) ++ optional32 (s.jobs.carried.map (·.row))

/-- READ_STATUS at its grant (R55). -/
def State.readStatusRequest (s : State) (port : Port) (tag page : Byte) : State :=
  if 7 < page.toNat then s.answer port tag .badArg [] else s.answer port tag .done (s.statusPage page.toNat)

/-- A code for each of the lanes 0 to 5. -/
def sixLanes (f : Nat → Nat) : List Byte := (List.range 6).flatMap fun n => byte1 (f n)

/-- The grade code of a lane; 15 where the lane has no entry (R69, R175). -/
def Row.gradeCode (r : Row) (lane : Nat) : Nat := ((r.lanes[lane]?).map (·.grade.code)).getD 15

/-- The disposition and divert reason of a lane in one byte; 255 where absent (R175). -/
def Row.dispositionCode (r : Row) (lane : Nat) : Nat :=
  match r.lanes[lane]? with
  | none => 255
  | some c =>
    match c.disposition with
    | none => 255
    | some d => d.code + 16 * ((c.reason.map (·.code)).getD 0)

/-- The late-reject marks as a mask (R175). -/
def Row.lateMask (r : Row) : Byte := byteOfBits (r.lanes.map (·.late))

/-- The stack id of a lane, if present. -/
def Row.stackOf (r : Row) (lane : Nat) : Option StackId := (r.lanes[lane]?).bind (·.stack)

/-- The page of a row record (R69). -/
def Row.page (r : Row) (page : Nat) : List Byte :=
  match page with
  | 0 => bytes32 r.number ++ [r.flagsByte] ++ byte1 r.slot.val ++ byte1 r.state.code ++ sixLanes r.gradeCode
  | 1 => bytes32 r.pm ++ bytes32 r.trigger
  | 2 => bytes32 r.arrival ++ bytes32 r.commit
  | 3 => sixLanes r.dispositionCode ++ [r.lateMask]
  | 4 => presence [(r.stackOf 0).isSome, (r.stackOf 1).isSome, (r.stackOf 2).isSome, r.cutError.isSome] ++
      optional16 (r.stackOf 0) ++ optional16 (r.stackOf 1) ++ optional16 (r.stackOf 2) ++
      bytes32 (BitVec.ofInt 32 (r.cutError.getD 0))
  | _ => presence [(r.stackOf 3).isSome, (r.stackOf 4).isSome, (r.stackOf 5).isSome] ++
      optional16 (r.stackOf 3) ++ optional16 (r.stackOf 4) ++ optional16 (r.stackOf 5)

/-- READ_ROW at its grant (R69). -/
def State.readRowRequest (s : State) (port : Port) (tag : Byte) (row : Word) (page : Byte) : State :=
  if 5 < page.toNat then s.answer port tag .badArg []
  else
    match s.lookup row with
    | .found r => s.answer port tag .done (r.page page.toNat)
    | .gone => s.answerRowGone port tag row
    | .notYet => s.answer port tag .unknownRow []

/-- Two suspect rows of a stack, from place `n` on (R132). -/
def Stack.suspectPair (k : Stack) (n : Nat) : List Byte :=
  presence [(k.suspects[n]?).isSome, (k.suspects[n + 1]?).isSome] ++ optional32 k.suspects[n]? ++
    optional32 k.suspects[n + 1]?

/-- The page of a stack record (R132); the decline count is present when the stack is held. -/
def Stack.page (k : Stack) (page : Nat) : List Byte :=
  match page with
  | 0 => bytes16 k.id ++ byte1 k.lane ++ byte1 k.slot.val ++ byte1 k.state.code ++ [k.flagsByte] ++ nat16 k.target ++
      nat16 k.count
  | 1 => presence [k.firstRow.isSome, k.lastRow.isSome] ++ nat16 k.minor ++ optional32 k.firstRow ++
      optional32 k.lastRow
  | 2 => presence [decide (k.state ≠ .opened), k.remaining.isSome] ++
      byte1 (if k.state = .opened then 0 else k.declines) ++ nat16 (k.remaining.getD 0) ++ byte1 k.suspects.length ++
      flag1 k.overflowed
  | 3 => k.suspectPair 0
  | 4 => k.suspectPair 2
  | 5 => k.suspectPair 4
  | _ => k.suspectPair 6

/-- READ_STACK (R132). DESIGN CHOICE (log 30): the page is checked before the id, which R132 leaves open where both are
faulty. -/
def State.readStackRequest (s : State) (port : Port) (tag : Byte) (id : StackId) (page : Byte) : State :=
  if 6 < page.toNat then s.answer port tag .badArg []
  else
    match s.stack? id with
    | none => s.answer port tag .unknownStack []
    | some (_, _, k) => s.answer port tag .done (k.page page.toNat)

/-- The page of a lane (R134). -/
def PocketLane.page (l : PocketLane) (page : Nat) : List Byte :=
  match page with
  | 0 => bytes32 l.stacked ++ bytes32 l.diverted
  | 1 => bytes32 l.manual ++ bytes32 l.lateRejects
  | _ => presence [l.openStack.isSome, l.heldStack.isSome] ++ optional16 (l.openStack.map (·.id)) ++
      optional16 (l.heldStack.map (·.id)) ++ byte1 l.pendingCount ++ [l.blockByte] ++ [l.deferByte]

/-- READ_LANE (R134). -/
def State.readLaneRequest (s : State) (port : Port) (tag lane page : Byte) : State :=
  if !s.laneExists lane ∨ 2 < page.toNat then s.answer port tag .badArg []
  else s.answer port tag .done ((s.lane? lane.toNat).getD .atReset |>.page page.toNat)

end Sys2Proof.Machine
end

