-- ==== Sys2Proof/Machine/Jobs.lean ====
section
/-! DEFINITION. The loading of job slots and the scheduling of plan switches
(spec/01_job_slots_and_stack_plans.md, R1 to R9; R164). -/

namespace Sys2Proof.Machine

/-- The first part of a JOB_LOAD is held in the part buffer (R164). -/
def State.jobLoadPartRequest (s : State) (port : Port) (tag : Byte) (part : JobPart) : State :=
  State.answer { s with partBuffer := some ⟨tag, part⟩ } port tag .done (byte1 1)

/-- R4: the slot is protected while tracking is out of IDLE. -/
def State.slotProtected (s : State) (n : SlotNumber) : Bool :=
  decide (s.trk.state ≠ .idle) &&
    (decide (s.trk.armed = some n) || decide (s.jobs.scheduled.map (·.slot) = some n) ||
      decide (s.jobs.carried.map (·.previous) = some n))

/-- R5: the first failing field of a JOB_LOAD, by its place in the table. -/
def State.failingField? (s : State) (p : JobPart) (r : JobRest) : Option Nat :=
  let rn := p.rn.toNat
  if 3 < p.slot.toNat then some 0
  else if rn < 64 ∨ 1048575 < rn then some 1
  else if p.lk.toNat < 256 ∨ 92160 < p.lk.toNat then some 2
  else if p.lk.toNat - 256 < p.li.toNat then some 3
  else if p.lead.toNat = 0 ∨ rn >>> 2 < p.lead.toNat then some 4
  else if r.wc.toNat = 0 ∨ rn >>> 4 < r.wc.toNat then some 5
  else if r.lanes = 0 ∨ !s.maskBelowLimit r.lanes then some 6
  else none

/-- The fields that a JOB_LOAD stores (R6, R174): five are brought into range. -/
def storedJob (p : JobPart) (r : JobRest) : Job :=
  { rn := p.rn.toNat, lk := p.lk.toNat, li := p.li.toNat, lead := p.lead.toNat, wc := r.wc.toNat, lanes := r.lanes
    target := clampNat 10 9999 r.target.toNat
    k := clampNat 0 6 r.k.toNat
    j := clampNat 2 5 r.j.toNat
    missLimit := clampNat 1 8 r.missLimit.toNat
    tolerance := clampNat 0 (p.rn.toNat >>> 1) r.tolerance.toNat
    flywheel := if r.policies.getLsbD 0 then .reject else .trust
    ungraded := if r.policies.getLsbD 1 then .divert else .stack
    minor := if r.policies.getLsbD 2 then .divert else .stack }

/-- The fields that R6 brought into range, as R175 orders their bits. -/
def changedFields (p : JobPart) (r : JobRest) : Byte :=
  let job := storedJob p r
  byteOfBits [decide (job.k ≠ r.k.toNat), decide (job.j ≠ r.j.toNat), decide (job.target ≠ r.target.toNat),
    decide (job.missLimit ≠ r.missLimit.toNat), decide (job.tolerance ≠ r.tolerance.toNat)]

/-- R4 to R6: a JOB_LOAD is checked and carried out. -/
def State.loadJob (s : State) (port : Port) (tag : Byte) (p : JobPart) (r : JobRest) : State :=
  if (slotNumber? p.slot).any s.slotProtected then s.answer port tag .badState []
  else
    match s.failingField? p r with
    | some n => s.answer port tag .badArg (byte1 n)
    | none =>
      let s := { s with jobs := { s.jobs with slots := s.jobs.slots.set p.slot.toNat (some (storedJob p r)) } }
      if changedFields p r = 0 then s.answer port tag .done []
      else s.answer port tag .doneClamped [changedFields p r]

/-- The second part of a JOB_LOAD, with the first part that the part buffer held (R164): an empty buffer refuses it. -/
def State.jobLoadRequest (s : State) (port : Port) (tag : Byte) (held : Option PartBuffer) (rest : JobRest) : State :=
  match held with
  | some b => s.loadJob port tag b.part rest
  | none => s.answer port tag .badArg []

/-- The slot is VALID (R1). -/
def State.validSlot? (s : State) (b : Byte) : Option (SlotNumber × Job) :=
  (slotNumber? b).bind fun n => (s.validJob? n).map fun j => (n, j)

/-- R8: two slots describe the same web geometry. -/
def sameGeometry (a b : Job) : Bool := decide (a.rn = b.rn ∧ a.lk = b.lk ∧ a.li = b.li)

/-- R8: at_row lies from the next row number to 65,535 past it. -/
def State.switchRowOk (s : State) (atRow : Word) : Bool :=
  decide (0 ≤ wdiff atRow s.tab.nextRow ∧ wdiff atRow s.tab.nextRow ≤ Config.switchReach)

/-- R8: the tracking states in which a JOB_SWITCH may be accepted. -/
def TrackingState.switchable : TrackingState → Bool
  | .hunt | .track | .fault => true
  | .idle | .drain => false

/-- The scheduled switch is set. -/
def State.schedule (s : State) (w : Option ScheduledSwitch) : State :=
  { s with jobs := { s.jobs with scheduled := w } }

/-- R8, R9: a JOB_SWITCH schedules a plan switch, or cancels one when it names the armed slot. -/
def State.switchJob (s : State) (port : Port) (tag slot : Byte) (atRow : Word) : State :=
  match s.trk.armed with
  | none => s.answer port tag .badState []
  | some a =>
    if !s.trk.state.switchable then s.answer port tag .badState []
    else if slotNumber? slot ≠ some a ∧ s.jobs.carried.isSome then s.answer port tag .badState []
    else
      match s.validSlot? slot with
      | none => s.answer port tag .badArg []
      | some (n, job) =>
        if n = a then (s.schedule none).answer port tag .done []
        else if !sameGeometry job (s.job a) ∨ !s.switchRowOk atRow then s.answer port tag .badArg []
        else (s.schedule (some ⟨n, atRow⟩)).answer port tag .done []

/-- JOB_SWITCH (R8, R9). -/
def State.jobSwitchRequest (s : State) (port : Port) (tag slot : Byte) (atRow : Word) : State :=
  s.switchJob port tag slot atRow

end Sys2Proof.Machine
end

