-- ==== Sys2Proof/Machine/Arithmetic.lean ====
section
/-! DEFINITION. The Register Tracker's arithmetic (spec/02_web_position_and_register_arithmetic.md). -/

namespace Sys2Proof.Machine

/-- The filter step of R22: the deviation over `2^k`, rounded to nearest, halves away from zero. -/
def filterStep (k : Nat) (d : Int) : Int := if k = 0 then d else shiftRounded d (2 ^ (k - 1)) k

/-- The least value Rm may take: Rn − (Rn>>2) (R22). -/
def rmLow (rn : Nat) : Nat := rn - rn >>> 2

/-- The greatest value Rm may take: Rn + (Rn>>2) (R22). -/
def rmHigh (rn : Nat) : Nat := rn + rn >>> 2

/-- Rm before the clamp of R22, for a measured repeat `m`. -/
def rmUnclamped (job : Job) (rm : Nat) (m : Int) : Int := (rm : Int) + filterStep job.k (m - rm)

/-- The repeat filter of R22, for a measured repeat `m`. -/
def filteredRm (job : Job) (rm : Nat) (m : Int) : Nat :=
  (clampInt (rmLow job.rn) (rmHigh job.rn) (rmUnclamped job rm m)).toNat

/-- The clamp of R22 acts. -/
def rmClamped (job : Job) (rm : Nat) (m : Int) : Bool :=
  decide (rmUnclamped job rm m < rmLow job.rn ∨ (rmHigh job.rn : Int) < rmUnclamped job rm m)

/-- A q8 path length in counts: floor((L × Rm + 128) / 256) (R26). -/
def pathCounts (l rm : Nat) : Nat := (l * rm + 128) / 256

/-- The mark window half-width h = Rm >> j. -/
def windowHalf (rm j : Nat) : Nat := rm >>> j

/-- The spacing guard distance g = ceil(Rm / 2) (R29). -/
def guardDistance (rm : Nat) : Nat := (rm + 1) / 2

/-- A position moved on by a count. -/
def addCount (x : Word) (n : Nat) : Word := x + BitVec.ofNat 32 n

/-- A position moved by a signed count. -/
def addSigned (x : Word) (n : Int) : Word := x + BitVec.ofInt 32 n

/-- O before the clamp of R31. -/
def offsetUnclamped (offset e : Int) : Int := offset + shiftMagnitude e 2

/-- The adapted knife offset of R31. -/
def adaptedOffset (oSync offset e : Int) (rn : Nat) : Int :=
  clampInt (oSync - (rn >>> 4 : Nat)) (oSync + (rn >>> 4 : Nat)) (offsetUnclamped offset e)

/-- The clamp of R31 acts. -/
def offsetClamped (oSync offset e : Int) (rn : Nat) : Bool :=
  decide (offsetUnclamped offset e < oSync - (rn >>> 4 : Nat) ∨ oSync + (rn >>> 4 : Nat) < offsetUnclamped offset e)

/-- The filtered cut error of R33. -/
def filteredEf (ef e : Int) : Int := clampInt (-Config.efBound) Config.efBound (ef + shiftRounded (e - ef) 4 3)

/-- R34: the notice DRIFT_LIMIT and the fault offer. -/
def State.driftLimit (s : State) (row : Word) (bound : Int) : State :=
  (s.raise ⟨.driftLimit, some row, none, none, some s.pos.web, figures32 (BitVec.ofInt 32 bound)⟩).offerFault
    .driftLimit (some row) s.pos.web

/-- R26: the offsets from the armed slot's path lengths and Rm. -/
def State.synchronise (s : State) : State :=
  let job := s.armedJob
  { s with trk := { s.trk with
      oSync := pathCounts job.lk s.trk.rm, offset := pathCounts job.lk s.trk.rm
      oi := pathCounts job.li s.trk.rm } }

/-- The spacing guard acts for an arrival against the newest row of the table (R29). -/
def State.guardActs (s : State) (arrival : Word) : Bool :=
  match s.tab.rows.getLast? with
  | none => false
  | some r =>
    !(r.state.settled && decide (Config.oldArrival ≤ wdiff s.pos.frontier r.arrival)) &&
      decide (wdiff arrival r.arrival < guardDistance s.trk.rm)

/-- The counts by which the spacing guard moves an arrival (R29). -/
def State.guardShift (s : State) (arrival : Word) : Word :=
  match s.tab.rows.getLast? with
  | none => 0
  | some r => if s.guardActs arrival then addCount r.arrival (guardDistance s.trk.rm) - arrival else 0

end Sys2Proof.Machine
end

