-- ==== Sys2Proof/Machine/Tracking.lean ====
section
/-! DEFINITION. The tracking engine's changes of state, the reversal and the creation of rows
(spec/03_the_tracking_engine.md, spec/04_the_row_table.md). -/

namespace Sys2Proof.Machine

/-- R48, R49: a fatal fault. In FAULT it is only offered to the fault record. -/
def State.fatalFault (s : State) (k : FaultKind) (row : Option Word) (x : Word) : State :=
  if s.trk.state = .fault then s.offerFault k row x
  else
    let s := s.dropFlywheel.gatesToDivert.abandonRanges.offerFault k row x
    (s.raise ⟨.fault, row, none, none, some x, [figure k.code]⟩).enterState .fault

/-- R44: entry to IDLE by DISARM or at the end of DRAIN; STATE_CHANGE comes last. -/
def State.enterIdle (s : State) : State :=
  let s := s.dropFlywheel
  let s := { s with
    trk := { s.trk with armed := none }
    pos := { s.pos with revArmed := false }
    jobs := { s.jobs with scheduled := none, carried := none } }
  let s := s.abandonRanges.closeAll false
  State.enterState { s with kg := { s.kg with cutDebt := false } } .idle

/-- R43: DRAIN ends when no row is TRAVELLING or COMMITTED. -/
def State.endDrain (s : State) : State :=
  if s.trk.state = .drain ∧ s.rowsToDrain = false then s.enterIdle else s

/-- Steps 3 and 4 of R46: the notice REVERSAL and the fault offer. -/
def State.reportReversal (s : State) : State :=
  (s.raise ⟨.reversal, none, none, none, some s.pos.web, figures32 (s.pos.frontier - s.pos.web)⟩).offerFault
    .reversal none s.pos.web

/-- R46, R47: a reversal handed to the tracker. -/
def State.reverse (s : State) : State :=
  match s.trk.state with
  | .hunt | .track => ((s.handEvent .forcing).dropFlywheel.reportReversal).enterState .hunt
  | .drain => (s.handEvent .forcing).reportReversal
  | .fault => s.reportReversal
  | .idle => s

/-- R20: the check of the backward travel against the armed slot's tolerance. -/
def State.checkReversal (s : State) : State :=
  match s.trk.armed with
  | none => s
  | some n =>
    if wdiff s.pos.frontier s.pos.web ≤ (s.job n).tolerance then { s with pos := { s.pos with revArmed := true } }
    else if s.pos.revArmed then State.reverse { s with pos := { s.pos with revArmed := false } }
    else s

/-- The check is armed and evaluated at once (R20, R39, R51). -/
def State.armReversalCheck (s : State) : State :=
  State.checkReversal { s with pos := { s.pos with revArmed := true } }

/-- The oldest record is retired; its number becomes gone and its deadlines go with it (R18, R61, R66). -/
def State.retireOldest (s : State) : State :=
  match s.tab.rows with
  | [] => s
  | r :: rest =>
    let s := s.dropDeadlines (fun k => k.row? = some r.number)
    { s with tab := { s.tab with rows := rest } }

/-- R66: with more than sixteen CUT and MISSED rows the oldest record is retired. -/
def State.retain (s : State) : State :=
  if Config.retainedRows < s.tab.rows.countP (·.state.settled) then s.retireOldest else s

/-- R61: room for a record, with an early retirement if the oldest is CUT or MISSED; none is TABLE_FULL (R64). -/
def State.room? (s : State) : Option State :=
  if s.tab.rows.length < Config.tableCapacity then some s
  else
    match s.tab.rows with
    | [] => some s
    | r :: _ => if r.state.settled then some s.retireOldest else none

/-- R10: a scheduled switch whose row is being created becomes the carried switch, and its slot the armed slot. -/
def State.applySwitch (s : State) : State :=
  match s.jobs.scheduled with
  | none => s
  | some w =>
    if w.atRow = s.tab.nextRow then
      { s with
        trk := { s.trk with armed := some w.slot }
        jobs := { s.jobs with
          scheduled := none, carried := some ⟨s.trk.armed.getD w.slot, w.slot, w.atRow⟩ } }
    else s

/-- R22: the repeat filter at the creation of a SENSED row whose mark stands at `pm`. -/
def State.filterRepeat (s : State) (pm : Word) : State :=
  match s.tab.rows.getLast? with
  | none => s
  | some r =>
    if r.origin = .sensed then
      let m := wdiff pm r.pm
      let rm := filteredRm s.armedJob s.trk.rm m
      let t := { s with trk := { s.trk with rm := rm } }
      if rmClamped s.armedJob s.trk.rm m then t.driftLimit s.tab.nextRow rm else t
    else s

/-- The lane entries of a new row: VOID outside the lane set, otherwise PENDING, or FORCED (R62, R63). -/
def newLanes (limit : Nat) (set : Byte) (forced : Bool) : List RowLane :=
  (List.range limit).map fun n =>
    ⟨if set.getLsbD n then (if forced then .forced else .pending) else .void, none, none, none, false⟩

/-- R28, R29, R62, R63: the record of a new row under the armed slot. -/
def State.newRow (s : State) (origin : Origin) (pm : Word) : Row :=
  let job := s.armedJob
  let arrival := addSigned pm s.trk.offset
  let shift := s.guardShift arrival
  let clamped := s.guardActs arrival
  { number := s.tab.nextRow, origin := origin, clamped := clamped, triggered := false, double := false
    misregistered := false, slot := s.trk.armed.getD 0, pm := pm
    trigger := addCount pm s.trk.oi + shift
    arrival := arrival + shift
    commit := arrival + shift - BitVec.ofNat 32 job.lead
    state := .travelling
    lanes := newLanes s.limit job.lanes (clamped || (origin = .flywheel && job.flywheel = .reject))
    cutError := none }

/-- Steps 5 and 6 of R28 and the writing of the record: the row is appended and its deadlines entered (R62). -/
def State.insertRow (s : State) (r : Row) : State :=
  let wc := (s.job r.slot).wc
  let s := { s with
    tab := { s.tab with rows := s.tab.rows ++ [r], nextRow := s.tab.nextRow + 1 }
    trk := { s.trk with pmLast := r.pm } }
  ((s.enterDeadline ⟨r.trigger, .trigger r.number⟩).enterDeadline ⟨r.commit, .commit r.number⟩).enterDeadline
    ⟨addCount r.arrival wc, .missedCut r.number⟩

/-- Step 7 of R28: the flywheel deadline at Pm_last + Rm + h. -/
def State.renewFlywheel (s : State) : State :=
  s.enterFlywheel (addCount (addCount s.trk.pmLast s.trk.rm) (windowHalf s.trk.rm s.armedJob.j))

/-- R49, R64: a creation that finds no room. -/
def State.tableFull (s : State) : State := s.fatalFault .tableFull (some s.tab.nextRow) s.pos.web

/-- R23: a SENSED row is created in TRACK. -/
def State.createSensed (s : State) (pm : Word) : State :=
  match s.room? with
  | none => s.tableFull
  | some s =>
    let s := s.applySwitch.filterRepeat pm
    let s := { s with trk := { s.trk with miss := 0 } }
    (s.insertRow (s.newRow .sensed pm)).renewFlywheel

/-- R27, R40: the first mark in HUNT resynchronises the tracker. -/
def State.createResync (s : State) (pm : Word) : State :=
  match s.room? with
  | none => s.tableFull
  | some s =>
    let s := s.applySwitch.synchronise
    let s := { s with trk := { s.trk with miss := 0 } }
    let r := s.newRow .resync pm
    let s := (s.insertRow r).renewFlywheel
    (s.raise ⟨.resync, some r.number, none, none, some r.pm, figures32 r.arrival⟩).enterState .track

/-- R41: register loss after the FLYWHEEL row `row` reached the miss limit. -/
def State.loseRegister (s : State) (row : Word) : State :=
  let s := s.dropFlywheel
  let s := s.raise ⟨.registerLost, some row, none, none, some s.pos.web, [figure s.trk.miss]⟩
  (s.offerFault .registerLost (some row) s.pos.web).enterState .hunt

/-- R24: a FLYWHEEL row at Pm_last + Rm, with the register loss at the miss limit. -/
def State.createFlywheel (s : State) : State :=
  match s.room? with
  | none => s.tableFull
  | some s =>
    let s := s.applySwitch
    let s := { s with trk := { s.trk with miss := s.trk.miss + 1 } }
    let r := s.newRow .flywheel (addCount s.trk.pmLast s.trk.rm)
    let s := s.insertRow r
    let s := s.raise ⟨.flywheelRow, some r.number, none, none, some r.pm, [figure s.trk.miss]⟩
    if s.armedJob.missLimit ≤ s.trk.miss then s.loseRegister r.number else s.renewFlywheel

/-- R23: a spurious mark sets the Line Port's SPURIOUS_MARK flag and nothing else. -/
def State.spuriousMark (s : State) : State :=
  s.modifyPort .line fun q => { q with flags := { q.flags with spuriousMark := true } }

/-- R61: the mark is judged within its grant, against the tracking state that then stands. -/
def State.serveMark (s : State) (x : Word) (live : Bool) : State :=
  match live, s.trk.state with
  | true, .hunt => s.createResync x
  | true, .track =>
    if wdiff x s.trk.pmLast < (s.trk.rm : Int) - windowHalf s.trk.rm s.armedJob.j then s.spuriousMark
    else s.createSensed x
  | _, _ => s

/-- R24, R25, R61: a flywheel crossing makes a row in TRACK while no later deadline has replaced it. -/
def State.serveFlywheel (s : State) (x : Word) : State :=
  if s.trk.state = .track ∧ s.pos.flywheelCrossing = some x then
    State.createFlywheel { s with pos := { s.pos with flywheelCrossing := none } }
  else s

end Sys2Proof.Machine
end

