-- ==== Sys2Proof/Machine/Requests.lean ====
section
/-! DEFINITION. The tracking, line, pocket, grade and delivery requests (R39 to R56, R81, R82, R112 to R115, R129,
R130, R134, R139, R143 to R146). -/

namespace Sys2Proof.Machine

/-- R39: the effect of an accepted ARM. -/
def State.armSlot (s : State) (n : SlotNumber) (job : Job) : State :=
  let s := { s with trk := { s.trk with armed := some n, rm := job.rn, ef := 0, miss := 0 } }
  let s := s.synchronise
  let s := State.replanAll { s with jobs := { s.jobs with plan := some n } } n
  (s.enterState .hunt).armReversalCheck

/-- ARM (R39). -/
def State.armRequest (s : State) (port : Port) (tag slot : Byte) : State :=
  if s.trk.state ≠ .idle then s.answer port tag .badState []
  else
    match s.validSlot? slot with
    | none => s.answer port tag .badArg []
    | some (n, job) => (s.armSlot n job).answer port tag .done []

/-- DISARM (R42). -/
def State.disarmRequest (s : State) (port : Port) (tag : Byte) : State :=
  match s.trk.state with
  | .hunt | .track =>
    let s := s.dropFlywheel
    (if s.rowsToDrain then s.enterState .drain else s.enterIdle).answer port tag .done []
  | .drain => s.answer port tag .done []
  | .idle | .fault => s.answer port tag .badState []

/-- The cut debt is cleared (R107). -/
def State.clearDebt (s : State) : State := { s with kg := { s.kg with cutDebt := false } }

/-- R51: the effect of an accepted RESTART. -/
def State.restartTracking (s : State) : State :=
  let s := s.dropFlywheel.emptyTable.staleMarks.abandonRanges.clearDebt.releaseSeps.clearPending
  let s := { s with trk := { s.trk with miss := 0, ef := 0 } }
  (s.enterState .hunt).armReversalCheck

/-- RESTART (R51). -/
def State.restartRequest (s : State) (port : Port) (tag : Byte) : State :=
  if s.trk.state ≠ .fault ∨ s.trk.armed = none then s.answer port tag .badState []
  else s.restartTracking.answer port tag .done []

/-- R52: the effect of RESET_TRACKING. -/
def State.resetTracking (s : State) : State :=
  let s := s.dropFlywheel.emptyTable.staleMarks
  let s := { s with
    trk := { s.trk with armed := none, rm := 0, oSync := 0, offset := 0, oi := 0, ef := 0, miss := 0 }
    pos := { s.pos with revArmed := false } }
  let s := (s.abandonRanges.gatesToDivert.releaseSeps.clearDebt.clearPending).closeAll true
  State.enterState { s with jobs := { s.jobs with scheduled := none, carried := none, plan := none } } .idle

/-- RESET_TRACKING (R52). -/
def State.resetTrackingRequest (s : State) (port : Port) (tag : Byte) : State :=
  s.resetTracking.answer port tag .done []

/-- FAULT_CLEAR (R54). -/
def State.faultClearRequest (s : State) (port : Port) (tag : Byte) : State :=
  State.answer { s with trk := { s.trk with fault := none } } port tag .done []

/-- The result of READ_FAULT (R54, R175). -/
def faultResult (r : Option FaultRecord) : List Byte :=
  match r with
  | none => presence [false] ++ byte1 0 ++ bytes32 0 ++ bytes32 0 ++ flag1 false
  | some r => presence [r.row.isSome] ++ byte1 r.kind.code ++ optional32 r.row ++ bytes32 r.position ++ flag1 r.more

/-- READ_FAULT (R54). -/
def State.readFaultRequest (s : State) (port : Port) (tag : Byte) : State :=
  s.answer port tag .done (faultResult s.trk.fault)

/-- R114, R115: the line and lane of a line request are good. -/
def State.lineNamed (s : State) (line lane : Byte) : Bool := decide (line.toNat ≤ 1) && s.laneExists lane

/-- Change the named gate or separator line: line 0 is GATE and 1 SEPARATOR (R175). -/
def State.modifyLine (s : State) (line lane : Byte) (f : FieldLine → FieldLine) : State :=
  if line = 0 then { s with kg := { s.kg with gates := s.kg.gates.modify lane.toNat f } }
  else { s with kg := { s.kg with seps := s.kg.seps.modify lane.toNat f } }

/-- R114: the line after a LINE_MODE; one that names the mode in force leaves it as it is. -/
def FieldLine.setMode (l : FieldLine) (m : LineMode) : FieldLine :=
  if l.mode = m then l
  else
    match m with
    | .manual => { l with mode := .manual, on := l.stored }
    | .functional => { l with mode := .functional, on := false }

/-- R115: the line after LINE_SET (`true`) or LINE_CLEAR (`false`). -/
def FieldLine.store (l : FieldLine) (b : Bool) : FieldLine :=
  { l with stored := b, on := if l.mode = .manual then b else l.on }

/-- LINE_MODE (R114): mode 0 is FUNCTIONAL and 1 MANUAL. -/
def State.lineModeRequest (s : State) (port : Port) (tag line lane mode : Byte) : State :=
  if !s.lineNamed line lane ∨ 1 < mode.toNat then s.answer port tag .badArg []
  else if line = 0 ∧ s.committedRow?.isSome then s.answer port tag .badState []
  else (s.modifyLine line lane (·.setMode (if mode = 0 then .functional else .manual))).answer port tag .done []

/-- LINE_SET (R115). -/
def State.lineSetRequest (s : State) (port : Port) (tag line lane : Byte) : State :=
  if !s.lineNamed line lane then s.answer port tag .badArg []
  else (s.modifyLine line lane (·.store true)).answer port tag .done []

/-- LINE_CLEAR (R115). -/
def State.lineClearRequest (s : State) (port : Port) (tag line lane : Byte) : State :=
  if !s.lineNamed line lane then s.answer port tag .badArg []
  else (s.modifyLine line lane (·.store false)).answer port tag .done []

/-- The lane carries a block reason. -/
def State.laneIsBlocked (s : State) (lane : Nat) : Bool := ((s.lane? lane).map PocketLane.blocked).getD false

/-- R129: the lane's held stack leaves with CLEARED. -/
def State.clearHeld (s : State) (lane : Nat) (wasBlocked : Bool) : State :=
  match s.heldStack? lane with
  | none => s
  | some k => (s.pocketCleared lane k).removeHeld lane wasBlocked

/-- R130: the lane's open stack is discarded, and CLOSING with it. -/
def State.discardOpen (s : State) (lane : Nat) (k : Stack) : State :=
  (s.pocketCleared lane k).modifyLane lane fun l =>
    { l with openStack := none, closing := false, deferShort := false, deferUntracked := false }

/-- R129: CLEAR_POCKET with scope HELD. -/
def State.clearPocketHeld (s : State) (port : Port) (tag : Byte) (lane : Nat) : State :=
  match s.heldStack? lane with
  | none => s.answer port tag .nothing []
  | some _ => (s.clearHeld lane (s.laneIsBlocked lane)).answer port tag .done []

/-- R130: CLEAR_POCKET with scope ALL. -/
def State.clearPocketAll (s : State) (port : Port) (tag : Byte) (lane : Nat) : State :=
  let blocked := s.laneIsBlocked lane
  match s.openStack? lane, s.heldStack? lane with
  | none, none => s.answer port tag .nothing []
  | some k, _ =>
    let plan := s.planFor k
    (((s.discardOpen lane k).clearHeld lane blocked).openNew lane plan.1 plan.2).answer port tag .done []
  | none, some k =>
    let plan := s.planFor k
    ((s.clearHeld lane blocked).openNew lane plan.1 plan.2).answer port tag .done []

/-- CLEAR_POCKET (R129, R130): scope 0 is HELD and 1 ALL. -/
def State.clearPocketRequest (s : State) (port : Port) (tag lane scope : Byte) : State :=
  if !s.laneExists lane ∨ 1 < scope.toNat then s.answer port tag .badArg []
  else if scope = 0 then s.clearPocketHeld port tag lane.toNat
  else s.clearPocketAll port tag lane.toNat

/-- The four tallies of a lane at 0 (R134). -/
def PocketLane.clearTallies (l : PocketLane) : PocketLane :=
  { l with stacked := 0, diverted := 0, manual := 0, lateRejects := 0 }

/-- CLEAR_TALLIES (R134). -/
def State.clearTalliesRequest (s : State) (port : Port) (tag mask : Byte) : State :=
  if mask = 0 ∨ !s.maskBelowLimit mask then s.answer port tag .badArg []
  else State.answer { s with pock := { s.pock with
      lanes := s.pock.lanes.mapIdx fun i l => if mask.getLsbD i then l.clearTallies else l } } port tag .done []

/-- The grade that a GRADE's list gives a lane: the list runs over the lanes of the mask, lowest first (R82, R174). -/
def gradeFor (mask : Byte) (grades : List Byte) (lane : Nat) : Option Grade :=
  if mask.getLsbD lane then
    (grades[((maskLanes mask).filter (· < lane)).length]?).bind gradeOfCode?
  else none

/-- R81: the arguments of a GRADE are good. -/
def State.gradeArgsOk (s : State) (mask : Byte) (grades : List Byte) : Bool :=
  decide (mask ≠ 0) && s.maskBelowLimit mask && grades.all fun b => (gradeOfCode? b).isSome

/-- GRADE at its grant (R81, R82). -/
def State.gradeRow (s : State) (port : Port) (tag : Byte) (row : Word) (mask : Byte) (grades : List Byte) : State :=
  if !s.gradeArgsOk mask grades then s.answer port tag .badArg []
  else
    match s.lookup row with
    | .gone => s.answerRowGone port tag row
    | .notYet => s.answer port tag .unknownRow []
    | .found r =>
      let g := gradeFor mask grades
      (s.mergeRow r g).answer port tag .done
        [laneMask (r.voidLanes g), BitVec.ofNat 8 r.state.code, laneMask (r.lateLanes g)]

/-- TRIGGER_ROW (R112). -/
def State.triggerRowRequest (s : State) (port : Port) (tag : Byte) : State :=
  match s.kg.lastTriggered with
  | none => s.answer port tag .nothing []
  | some (n, x) => s.answer port tag .done (bytes32 n ++ bytes32 x ++ flag1 s.kg.itrig)

/-- R144: a counted quantity that differs from the stack's count. -/
def Stack.mismatch (k : Stack) (counted : Option (BitVec 16)) : Bool :=
  match counted with
  | some q => decide (q.toNat ≠ k.count)
  | none => false

/-- R144: COUNT_MISMATCH on the Line Port. -/
def State.reportMismatch (s : State) (lane : Nat) (k : Stack) (counted : Option (BitVec 16)) : State :=
  if k.mismatch counted then
    s.raise ⟨.countMismatch, none, some k.id, some lane, some s.pos.web, [figure k.count, counted.getD 0]⟩
  else s

/-- ACCEPT (R143, R144). -/
def State.acceptRequest (s : State) (port : Port) (tag : Byte) (id : StackId) (counted : Option (BitVec 16)) : State :=
  match s.stack? id with
  | none => s.answer port tag .unknownStack []
  | some (_, false, _) => s.answer port tag .notOffered []
  | some (lane, true, k) =>
    ((s.reportMismatch lane k counted).removeHeld lane (s.laneIsBlocked lane)).answer port tag .done
      (nat16 k.count ++ [k.flagsByte] ++ flag1 (k.mismatch counted))

/-- The result of a DECLINE (R139, R175): the stack's new state, decline count and, for BACKOFF, remaining cuts. -/
def declineResult (k : Stack) : List Byte :=
  presence [k.remaining.isSome] ++ byte1 k.state.code ++ byte1 k.declines ++ nat16 (k.remaining.getD 0)

/-- DECLINE (R139). -/
def State.declineRequest (s : State) (port : Port) (tag : Byte) (id : StackId) : State :=
  match s.stack? id with
  | none => s.answer port tag .unknownStack []
  | some (_, false, _) => s.answer port tag .notOffered []
  | some (lane, true, k) =>
    if k.state ≠ .offered then s.answer port tag .notOffered []
    else (s.declineHeld lane).answer port tag .done (declineResult k.declined)

/-- SET_OFFER_WINDOW (R146). -/
def State.setOfferWindowRequest (s : State) (port : Port) (tag : Byte) (cuts : BitVec 16) : State :=
  let n := clampNat 8 255 cuts.toNat
  State.answer { s with offerSetting := n } port tag (if n = cuts.toNat then .done else .doneClamped) (byte1 n)

end Sys2Proof.Machine
end

