-- ==== Sys2Proof/Machine/Taking.lean ====
section
/-! DEFINITION. The taking of a request: the end of an exchange, the checks of the port, and what is carried out at once
(spec/10_link_ports_frames_and_notices.md, R162 to R164, R171). -/

namespace Sys2Proof.Machine

/-- R163: a request that passes the port's checks is carried out at once, or waits in the request slot where it is served
through the Table Access Unit (R171). `held` is what the part buffer held when the frame was taken (R164). -/
def State.perform (s : State) (p : Port) (held : Option PartBuffer) (t : Taken) : State :=
  match t.request with
  | .takeNotice page => s.takeNoticeRequest p t.tag page
  | .peekNotice page => s.peekNoticeRequest p t.tag page
  | .fetchSummary => s.fetchSummaryRequest p t.tag
  | .setAttention level => s.setAttentionRequest p t.tag level
  | .portClear => s.portClearRequest p t.tag
  | .readStack id page => s.readStackRequest p t.tag id page
  | .readLane lane page => s.readLaneRequest p t.tag lane page
  | .jobLoadPart part => s.jobLoadPartRequest p t.tag part
  | .jobLoad rest => s.jobLoadRequest p t.tag held rest
  | .jobSwitch slot atRow => s.jobSwitchRequest p t.tag slot atRow
  | .arm slot => s.armRequest p t.tag slot
  | .disarm => s.disarmRequest p t.tag
  | .restart => s.restartRequest p t.tag
  | .resetTracking => s.resetTrackingRequest p t.tag
  | .faultClear => s.faultClearRequest p t.tag
  | .readFault => s.readFaultRequest p t.tag
  | .lineMode line lane mode => s.lineModeRequest p t.tag line lane mode
  | .lineSet line lane => s.lineSetRequest p t.tag line lane
  | .lineClear line lane => s.lineClearRequest p t.tag line lane
  | .clearPocket lane scope => s.clearPocketRequest p t.tag lane scope
  | .clearTallies mask => s.clearTalliesRequest p t.tag mask
  | .triggerRow => s.triggerRowRequest p t.tag
  | .accept id counted => s.acceptRequest p t.tag id counted
  | .decline id => s.declineRequest p t.tag id
  | .setOfferWindow cuts => s.setOfferWindowRequest p t.tag cuts
  | .readStatus _ | .readRow _ _ | .rangeTally _ _ _ | .rangeForce _ _ _ | .rangeOverrule _ _ _ | .grade _ _ _ =>
    s.modifyPort p fun q => { q with request := some t }

/-- R163, R164: a taken request of a known kind is refused by the port or passes its checks. -/
def State.take (s : State) (p : Port) (t : Taken) : State :=
  let held := s.partBuffer
  let s := s.emptyPartBuffer p
  if !kindPermitted (requestCode t.request) p then s.answer p t.tag .wrongPort []
  else if !formSound held t then s.answer p t.tag .badArg []
  else s.perform p held t

/-- R163: a complete frame that is not a POLL is taken. -/
def State.takeFrame (s : State) (p : Port) (f : List Byte) : State :=
  let code := (frameByte f 0).toNat
  let tag := frameByte f 1
  if !kindKnown code then (s.emptyPartBuffer p).answer p tag .unknownKind []
  else if !kindPermitted code p then (s.emptyPartBuffer p).answer p tag .wrongPort []
  else
    match requestOf f with
    | none => (s.emptyPartBuffer p).answer p tag .badArg []
    | some r => s.take p ⟨tag, r⟩

/-- R162: the incoming frame is judged when the select rises; a select that is high already does not rise. -/
def State.endExchange (s : State) (p : Port) (f : List Byte) : State :=
  match (s.port p).exchange with
  | none => s
  | some x =>
    if f.length < Config.frameBytes then s.framingError p
    else
      let s := s.closeExchange p x
      if frameByte f 0 = 0 then s
      else if frameByte f 0 = 5 then s.takeFrame p (f.take Config.frameBytes)
      else if x.driven = .stall then s.stalledDiscard p
      else s.takeFrame p (f.take Config.frameBytes)

/-- R162, R163 for a request whose frame the model does not spell out: the exchange in progress ends, and the request is
judged as its frame would be. -/
def State.endExchangeWith (s : State) (p : Port) (t : Taken) : State :=
  match (s.port p).exchange with
  | none => s
  | some x =>
    let s := s.closeExchange p x
    if x.driven = .stall ∧ t.request ≠ .portClear then s.stalledDiscard p else s.take p t

/-- The request comes in the exchange in progress on its port, or in one of its own (log 3). -/
def State.bring (s : State) (p : Port) (t : Taken) : State := (s.beginExchange p).endExchangeWith p t

/-- The command of a request that is carried out at once: the exchange that brings it (R163; log 3). -/
def State.atOnce (s : State) (p : Port) (t : Taken) : Result := s.awake fun s => s.bring p t

/-- The command of a request that is served through the Table Access Unit: the exchange that brings it, unless it waits in
its slot already, and then its grant where it has it (R73, R163; log 3). -/
def State.whenGranted (s : State) (p : Port) (t : Taken) (body : State → State) : Result :=
  s.awake fun s =>
    let s := if (s.port p).request = some t then s else s.bring p t
    if (s.port p).request = some t ∧ s.nextGrant = some (.port p) then body (s.portServed p) else s

end Sys2Proof.Machine
end

