-- ==== Sys2Proof/Machine/Commands.lean ====
section
/-! DEFINITION. The commands of the links: the select lines, POLL and the 31 requests, each one over the taking of its frame
(spec/10_link_ports_frames_and_notices.md, R160 to R164, R171). -/

namespace Sys2Proof.Machine

/-- SELECT_FALL: the exchange begins and the outgoing frame is fixed (R161). -/
def execSelectFall (port : Port) (s : State) : Result := s.awake fun s => s.beginExchange port

/-- SELECT_RISE: the exchange ends and the bits clocked in are judged (R162, R163). -/
def execSelectRise (port : Port) (bits : List Bool) (s : State) : Result :=
  s.awake fun s => s.endExchange port (clockedBytes bits)

/-- A POLL frame (R162, R174). -/
def pollFrame (tag : Byte) : List Byte := 0 :: tag :: List.replicate 14 0

/-- POLL: an exchange ends with a POLL frame; where none is in progress it is a whole exchange (R162; log 3). -/
def execPoll (port : Port) (tag : Byte) (s : State) : Result :=
  s.awake fun s => (s.beginExchange port).endExchange port (pollFrame tag)

/-- TAKE_NOTICE (R167). -/
def execTakeNotice (port : Port) (tag page : Byte) (s : State) : Result :=
  s.atOnce port ⟨tag, .takeNotice page⟩

/-- PEEK_NOTICE (R167). -/
def execPeekNotice (port : Port) (tag page : Byte) (s : State) : Result :=
  s.atOnce port ⟨tag, .peekNotice page⟩

/-- FETCH_SUMMARY (R165). -/
def execFetchSummary (port : Port) (tag : Byte) (s : State) : Result :=
  s.atOnce port ⟨tag, .fetchSummary⟩

/-- SET_ATTENTION (R168). -/
def execSetAttention (port : Port) (tag level : Byte) (s : State) : Result :=
  s.atOnce port ⟨tag, .setAttention level⟩

/-- PORT_CLEAR (R169). -/
def execPortClear (port : Port) (tag : Byte) (s : State) : Result :=
  s.atOnce port ⟨tag, .portClear⟩

/-- READ_STATUS (R55). -/
def execReadStatus (port : Port) (tag page : Byte) (s : State) : Result :=
  s.whenGranted port ⟨tag, .readStatus page⟩ fun s => s.readStatusRequest port tag page

/-- READ_ROW (R69). -/
def execReadRow (port : Port) (tag : Byte) (row : Word) (page : Byte) (s : State) : Result :=
  s.whenGranted port ⟨tag, .readRow row page⟩ fun s => s.readRowRequest port tag row page

/-- READ_STACK (R132). -/
def execReadStack (port : Port) (tag : Byte) (id : StackId) (page : Byte) (s : State) : Result :=
  s.atOnce port ⟨tag, .readStack id page⟩

/-- READ_LANE (R134). -/
def execReadLane (port : Port) (tag lane page : Byte) (s : State) : Result :=
  s.atOnce port ⟨tag, .readLane lane page⟩

/-- RANGE_TALLY (R150). -/
def execRangeTally (port : Port) (tag : Byte) (first : Word) (length : BitVec 16) (mask : Byte) (s : State) : Result :=
  s.whenGranted port ⟨tag, .rangeTally first length mask⟩ fun s => s.requestRange port tag .tally first length mask

/-- RANGE_FORCE (R150). -/
def execRangeForce (port : Port) (tag : Byte) (first : Word) (length : BitVec 16) (mask : Byte) (s : State) : Result :=
  s.whenGranted port ⟨tag, .rangeForce first length mask⟩ fun s => s.requestRange port tag .force first length mask

/-- RANGE_OVERRULE (R150). -/
def execRangeOverrule (port : Port) (tag : Byte) (first : Word) (length : BitVec 16) (mask : Byte) (s : State) :
    Result :=
  s.whenGranted port ⟨tag, .rangeOverrule first length mask⟩ fun s => s.requestRange port tag .overrule first length mask

/-- JOB_LOAD_PART (R164). -/
def execJobLoadPart (port : Port) (tag : Byte) (part : JobPart) (s : State) : Result :=
  s.atOnce port ⟨tag, .jobLoadPart part⟩

/-- JOB_LOAD (R4, R5, R6, R164): the frame of the second part, which is matched against the part buffer. Its first part
came in a frame of its own and is not carried again. -/
def execJobLoad (port : Port) (tag : Byte) (_part : JobPart) (rest : JobRest) (s : State) : Result :=
  s.atOnce port ⟨tag, .jobLoad rest⟩

/-- JOB_SWITCH (R8, R9). -/
def execJobSwitch (port : Port) (tag slot : Byte) (atRow : Word) (s : State) : Result :=
  s.atOnce port ⟨tag, .jobSwitch slot atRow⟩

/-- ARM (R39). -/
def execArm (port : Port) (tag slot : Byte) (s : State) : Result :=
  s.atOnce port ⟨tag, .arm slot⟩

/-- DISARM (R42). -/
def execDisarm (port : Port) (tag : Byte) (s : State) : Result :=
  s.atOnce port ⟨tag, .disarm⟩

/-- RESTART (R51). -/
def execRestart (port : Port) (tag : Byte) (s : State) : Result :=
  s.atOnce port ⟨tag, .restart⟩

/-- RESET_TRACKING (R52). -/
def execResetTracking (port : Port) (tag : Byte) (s : State) : Result :=
  s.atOnce port ⟨tag, .resetTracking⟩

/-- FAULT_CLEAR (R54). -/
def execFaultClear (port : Port) (tag : Byte) (s : State) : Result :=
  s.atOnce port ⟨tag, .faultClear⟩

/-- READ_FAULT (R54). -/
def execReadFault (port : Port) (tag : Byte) (s : State) : Result :=
  s.atOnce port ⟨tag, .readFault⟩

/-- LINE_MODE (R114). -/
def execLineMode (port : Port) (tag line lane mode : Byte) (s : State) : Result :=
  s.atOnce port ⟨tag, .lineMode line lane mode⟩

/-- LINE_SET (R115). -/
def execLineSet (port : Port) (tag line lane : Byte) (s : State) : Result :=
  s.atOnce port ⟨tag, .lineSet line lane⟩

/-- LINE_CLEAR (R115). -/
def execLineClear (port : Port) (tag line lane : Byte) (s : State) : Result :=
  s.atOnce port ⟨tag, .lineClear line lane⟩

/-- CLEAR_POCKET (R129, R130). -/
def execClearPocket (port : Port) (tag lane scope : Byte) (s : State) : Result :=
  s.atOnce port ⟨tag, .clearPocket lane scope⟩

/-- CLEAR_TALLIES (R134). -/
def execClearTallies (port : Port) (tag mask : Byte) (s : State) : Result :=
  s.atOnce port ⟨tag, .clearTallies mask⟩

/-- GRADE (R81, R82). -/
def execGrade (port : Port) (tag : Byte) (row : Word) (mask : Byte) (grades : List Byte) (s : State) : Result :=
  s.whenGranted port ⟨tag, .grade row mask grades⟩ fun s => s.gradeRow port tag row mask grades

/-- TRIGGER_ROW (R112). -/
def execTriggerRow (port : Port) (tag : Byte) (s : State) : Result :=
  s.atOnce port ⟨tag, .triggerRow⟩

/-- ACCEPT (R143, R144). -/
def execAccept (port : Port) (tag : Byte) (id : StackId) (counted : Option (BitVec 16)) (s : State) : Result :=
  s.atOnce port ⟨tag, .accept id counted⟩

/-- DECLINE (R139). -/
def execDecline (port : Port) (tag : Byte) (id : StackId) (s : State) : Result :=
  s.atOnce port ⟨tag, .decline id⟩

/-- SET_OFFER_WINDOW (R146). -/
def execSetOfferWindow (port : Port) (tag : Byte) (cuts : BitVec 16) (s : State) : Result :=
  s.atOnce port ⟨tag, .setOfferWindow cuts⟩

end Sys2Proof.Machine
end

