-- ==== Sys2Proof/Machine/Resets.lean ====
section
/-! DEFINITION. RESET_N (R21, R98 and the power-on rows of R13, R35, R56, R77, R116, R135, R148, R159, R170). -/

namespace Sys2Proof.Machine

/-- The controller at power-on with these straps and encoder phases, and the queue kept: every block takes its power-on
values, the straps are latched and the joint encoder state is the reference (R15, R21). -/
def powerOn (straps : Straps) (encA encB : Bool) (queue : List Instr) : State :=
  { State.reset with
    strapSafePin := straps.safe
    straps := straps
    pos := { State.reset.pos with encA := encA, encB := encB }
    pock := { State.reset.pock with lanes := List.replicate (limitOfCount straps.lanes) .atReset }
    pending := queue }

/-- RESET_N_ASSERTED: RESET_N is low; the gate pins follow STRAP_SAFE, and the separator, trigger and attention lines are
low, as the pin functions say (R98, R168). For data out see `State.dataOut` (log 16). -/
def execResetNAsserted (strapSafe : Bool) (s : State) : Result :=
  .next { s with inReset := true, strapSafePin := strapSafe }

/-- RESET_N_RELEASED: every block takes its power-on values (R21). -/
def execResetNReleased (straps : Straps) (encA encB : Bool) (s : State) : Result :=
  .next (powerOn straps encA encB s.pending)

end Sys2Proof.Machine
end

