-- ==== Sys2Proof/Machine/Knife.lean ====
section
/-! DEFINITION. The commit decision, the cut and the missed cut
(spec/05_grades_and_the_commit_decision.md, spec/06_knife_events_gates_and_field_lines.md). -/

namespace Sys2Proof.Machine

/-- Change one lane entry of a row. -/
def Row.modifyLane (r : Row) (lane : Nat) (f : RowLane → RowLane) : Row := { r with lanes := r.lanes.modify lane f }

/-- The lane has changed between two slots of a plan switch (step 1 of R11). -/
def laneChanged (old new : Job) (lane : Nat) : Bool :=
  if old.lanes.getLsbD lane && new.lanes.getLsbD lane then decide (old.target ≠ new.target)
  else old.lanes.getLsbD lane || new.lanes.getLsbD lane

/-- R11: the carried switch takes effect at the commit of the row, before any lane is decided. The lanes of each of its
steps are taken in ascending order (DEDUCED, log 29). -/
def State.switchCommit (s : State) (r : Row) : State :=
  match s.jobs.carried with
  | none => s
  | some c =>
    if r.slot = c.new then
      let old := s.job c.previous
      let new := s.job c.new
      let s := (List.range s.limit).foldl (fun t lane =>
        if laneChanged old new lane then t.closeLane false (some r.number) (some (c.new, new.target)) lane else t) s
      let s := (List.range s.limit).foldl (fun t lane => t.replanLane c.new lane) s
      let s := { s with jobs := { s.jobs with plan := some c.new, carried := none } }
      s.raise ⟨.jobSwitched, some r.number, none, none, some r.commit, [figure c.new.val]⟩
    else s

/-- The projected count reaches the open stack's target while a stack is held (R87). -/
def PocketLane.fills (l : PocketLane) : Bool :=
  match l.openStack, l.heldStack with
  | some k, some _ => decide (k.target ≤ k.count + l.pendingCount + 1)
  | _, _ => false

/-- R87: a stack candidate of the lane is refused. A lane without an open stack refuses too; none has one missing once
a slot has been armed (log 20). -/
def State.candidateRefused (s : State) (lane : Nat) : Bool :=
  match s.lane? lane with
  | some l => l.blocked || l.fills || l.openStack.isNone
  | none => true

/-- R85: the disposition list. -/
def State.decideLane (s : State) (job : Job) (debt : Bool) (lane : Nat) (g : Grade) :
    Disposition × Option DivertReason :=
  if s.gateManual lane then (.manual, none)
  else if debt then (.divert, some .double)
  else if g.condemning then (.divert, some .grade)
  else if g = .pending ∧ job.ungraded = .divert then (.divert, some .ungraded)
  else if g = .minor ∧ job.minor = .divert then (.divert, some .minorPolicy)
  else if s.candidateRefused lane then (.divert, some .blocked)
  else (.stack, none)

/-- R87: the pending count rises for STACK; a refusal for projection sets OVERFLOW. -/
def State.applyDecision (s : State) (row : Word) (lane : Nat) (d : Disposition × Option DivertReason) : State :=
  if d.1 = .stack then s.modifyLane lane fun l => { l with pendingCount := l.pendingCount + 1 }
  else if d.2 = some .blocked ∧ ((s.lane? lane).map PocketLane.fills).getD false then
    s.block lane (some row) fun l => { l with overflow := true }
  else s

/-- Step 3 of R84 for one lane. -/
def State.commitLane (r : Row) (debt : Bool) (s : State) (lane : Nat) : State :=
  match r.lanes[lane]? with
  | none => s
  | some c =>
    if c.grade = .void then s
    else
      let d := s.decideLane (s.job r.slot) debt lane c.grade
      (s.applyDecision r.number lane d).modifyRow r.number fun x =>
        x.modifyLane lane fun c => { c with disposition := some d.1, reason := d.2 }

/-- R88: the FUNCTIONAL gates of the lanes below the limit are set from the row's dispositions. -/
def State.setGates (s : State) (r : Row) : State :=
  { s with kg := { s.kg with
      gates := s.kg.gates.mapIdx fun i l =>
        if l.mode = .functional ∧ i < s.limit then
          { l with on := decide ((r.lanes[i]?).bind (·.disposition) = some .stack) }
        else l } }

/-- R84: the commit of a TRAVELLING row. -/
def State.commitRow (s : State) (r : Row) : State :=
  let s := s.switchCommit r
  let debt := s.kg.cutDebt
  let s := (List.range r.lanes.length).foldl (State.commitLane r debt) s
  let s := s.modifyRow r.number fun x => { x with double := x.double || debt, state := .committed }
  let s := { s with kg := { s.kg with cutDebt := false } }
  match s.row? r.number with
  | some x => s.setGates x
  | none => s

/-- R84: a granted commit; a removed row and a commit in FAULT are discarded. -/
def State.serveCommit (s : State) (n : Word) : State :=
  match s.row? n with
  | none => s
  | some r => if s.trk.state = .fault ∨ r.state ≠ .travelling then s else s.commitRow r

/-- R110: a granted trigger event. -/
def State.serveTrigger (s : State) (n : Word) : State :=
  match s.row? n with
  | none => s
  | some r =>
    let s := s.modifyRow n fun x => { x with triggered := true }
    let s := { s with kg := { s.kg with itrig := true, lastTriggered := some (n, r.trigger) } }
    (s.dropDeadlines (· = .triggerOff)).enterDeadline ⟨addCount r.trigger (s.trk.rm >>> 3), .triggerOff⟩

/-- R121: a STACK label lands in the lane's open stack. -/
def State.land (r : Row) (misregistered : Bool) (s : State) (lane : Nat) (c : RowLane) : State :=
  let s := s.modifyLane lane fun l => { l with pendingCount := l.pendingCount - 1, stacked := l.stacked + 1 }
  match s.openStack? lane with
  | none => s
  | some k =>
    let counted := k.countLabel r.number (c.grade = .minor)
    let k := if c.late || misregistered then counted.addSuspect r.number else counted
    let s := (s.modifyOpen lane fun _ => k).modifyRow r.number fun x =>
      x.modifyLane lane fun c => { c with stack := some k.id }
    if k.count = k.target then s.completeStack lane else s

/-- R103: one active lane of the cut row is dispatched by its disposition. -/
def State.dispatchLane (r : Row) (misregistered : Bool) (s : State) (lane : Nat) : State :=
  match r.lanes[lane]? with
  | none => s
  | some c =>
    if c.grade = .void then s
    else
      match c.disposition with
      | some .stack => State.land r misregistered s lane c
      | some .divert => s.modifyLane lane fun l => { l with diverted := l.diverted + 1 }
      | some .manual =>
        (s.modifyLane lane fun l => { l with manual := l.manual + 1 }).modifyOpen lane fun k =>
          { k with interrupted := true }
      | none => s

/-- R31, R33, R34: the adaptation of O and Ef by a matched cut. -/
def State.adapt (s : State) (row : Word) (e : Int) : State :=
  let rn := s.armedJob.rn
  let o := adaptedOffset s.trk.oSync s.trk.offset e rn
  let t := { s with trk := { s.trk with offset := o, ef := filteredEf s.trk.ef e } }
  if offsetClamped s.trk.oSync s.trk.offset e rn then t.driftLimit row o else t

/-- R30: the cut error lies within the row's cut window. An error above Wc does not arise (log 12). -/
def matchedCut (wc : Nat) (e : Int) : Bool := decide (-(wc : Int) ≤ e ∧ e ≤ wc)

/-- R102: a matched or misregistered cut of the COMMITTED row `r` at the captured position. The labels land in ascending lane
order (DEDUCED, log 29). DESIGN CHOICE (log 31): where the cut also ends DRAIN, the STACK_OFFERs of
the labels that complete a stack (step 4) stand before those of the closures (step 9), whatever their lanes. -/
def State.cutRow (s : State) (r : Row) (x : Word) : State :=
  let e := wdiff x r.arrival
  let matched := matchedCut (s.job r.slot).wc e
  let s := if matched then s.adapt r.number e else s
  let s := s.releaseSeps.countCut
  let s := (List.range r.lanes.length).foldl (State.dispatchLane r (!matched)) s
  let s :=
    if matched then s
    else (s.modifyRow r.number fun y => { y with misregistered := true }).raise
      ⟨.misregisteredCut, some r.number, none, none, some x, figures32 (BitVec.ofInt 32 e)⟩
  let s := s.modifyRow r.number fun y => { y with cutError := some e, state := .cut }
  let s := s.dropDeadlines (· = .missedCut r.number)
  s.retain.gatesToDivert.endDrain

/-- R105: an orphan cut. -/
def State.orphanCut (s : State) (x : Word) : State :=
  let s := s.releaseSeps.countCut.gatesToDivert
  let s := { s with kg := { s.kg with orphanCuts := s.kg.orphanCuts + 1 } }
  s.raise ⟨.orphanCut, none, none, none, some x, figures32 s.kg.orphanCuts⟩

/-- R101: a granted knife capture is the COMMITTED row's cut, or an orphan cut. -/
def State.serveKnife (s : State) (x : Word) : State :=
  match s.committedRow? with
  | some r => if s.trk.state = .fault then s.orphanCut x else s.cutRow r x
  | none => s.orphanCut x

/-- Step 1 of R106 for one active lane. -/
def State.missLane (r : Row) (s : State) (lane : Nat) : State :=
  match r.lanes[lane]? with
  | none => s
  | some c =>
    if c.grade = .void then s
    else s.modifyLane lane fun l =>
      { l with
        diverted := l.diverted + 1
        pendingCount := if c.disposition = some .stack then l.pendingCount - 1 else l.pendingCount }

/-- R106: a COMMITTED row is declared missed; `x` is its deadline position A + Wc. -/
def State.missRow (s : State) (r : Row) (x : Word) : State :=
  let s := (List.range r.lanes.length).foldl (State.missLane r) s
  let s := s.modifyRow r.number fun y =>
    { y with lanes := y.lanes.map fun c => { c with late := false }, state := .missed }
  let s := s.gatesToDivert
  let s := { s with kg := { s.kg with cutDebt := true } }
  let s := (s.raise ⟨.missedCut, some r.number, none, none, some x, []⟩).offerFault .missedCut (some r.number) x
  s.retain.endDrain

/-- R65, R106: a granted missed-cut event; only a COMMITTED row is declared missed. -/
def State.serveMissedCut (s : State) (n x : Word) : State :=
  match s.row? n with
  | none => s
  | some r => if r.state = .committed then s.missRow r x else s

/-- R95: FORCED is merged into one row on every active lane. -/
def State.forceRow (s : State) (n : Word) : State :=
  match s.row? n with
  | none => s
  | some r => s.mergeRow r fun _ => some .forced

/-- R95: the reversal forcing, over every row from the oldest to the newest. -/
def State.serveForcing (s : State) : State := (s.tab.rows.map (·.number)).foldl State.forceRow s

end Sys2Proof.Machine
end

