-- ==== Sys2Proof/Machine/TableEvents.lean ====
section
/-! DEFINITION. The grants of tracking events (R71, R72): the event at the front of those that wait is served. -/

namespace Sys2Proof.Machine

/-- The events that wait behind the one served. -/
def State.withEvents (s : State) (l : List TrackingEvent) : State := { s with tau := { s.tau with events := l } }

/-- ROW_CREATION: a granted mark capture or flywheel crossing (R61). -/
def execRowCreation (s : State) : Result :=
  s.awake fun s =>
    match s.tau.events with
    | .mark x live :: rest => (s.withEvents rest).serveMark x live
    | .flywheel x :: rest => (s.withEvents rest).serveFlywheel x
    | _ => s

/-- TRIGGER_EVENT: a granted trigger (R110). -/
def execTriggerEvent (s : State) : Result :=
  s.awake fun s =>
    match s.tau.events with
    | .trigger n :: rest => (s.withEvents rest).serveTrigger n
    | _ => s

/-- COMMIT: a granted commit (R84). -/
def execCommit (s : State) : Result :=
  s.awake fun s =>
    match s.tau.events with
    | .commit n :: rest => (s.withEvents rest).serveCommit n
    | _ => s

/-- MISSED_CUT_EVENT: a granted missed-cut event (R106). -/
def execMissedCutEvent (s : State) : Result :=
  s.awake fun s =>
    match s.tau.events with
    | .missedCut n x :: rest => (s.withEvents rest).serveMissedCut n x
    | _ => s

/-- KNIFE_EVENT: a granted knife capture (R101). -/
def execKnifeEvent (s : State) : Result :=
  s.awake fun s =>
    match s.tau.events with
    | .knife x :: rest => (s.withEvents rest).serveKnife x
    | _ => s

/-- REVERSAL_FORCING: a granted forcing (R95). -/
def execReversalForcing (s : State) : Result :=
  s.awake fun s =>
    match s.tau.events with
    | .forcing :: rest => (s.withEvents rest).serveForcing
    | _ => s

/-- OFFER_EXPIRY: the window of the lane's OFFERED stack has reached 0 and is counted as a decline (R140, log 9). -/
def execOfferExpiry (lane : Nat) (s : State) : Result := s.awake fun s => s.expireOffer lane

/-- BACKOFF_EXPIRY: the wait of the lane's BACKOFF stack has reached 0 and it is offered again (R141, log 9). -/
def execBackoffExpiry (lane : Nat) (s : State) : Result := s.awake fun s => s.expireBackoff lane

end Sys2Proof.Machine
end

