-- ==== Sys2Proof/Machine/Web.lean ====
section
/-! DEFINITION. The web: encoder edges, the frontier, deadlines, and the capture of mark and knife edges
(spec/02_web_position_and_register_arithmetic.md, R15 to R20, R24, R111). -/

namespace Sys2Proof.Machine

/-- A legal edge counts up (R15): with the direction strap low, phase A leads. -/
def countsUp (u : PositionUnit) (dir : Bool) (ph : EncoderPhase) : Bool :=
  let aLeads := match ph with
    | .a => u.encA == u.encB
    | .b => u.encA != u.encB
  if dir then !aLeads else aLeads

/-- The joint state after the phase changes. -/
def PositionUnit.toggle (u : PositionUnit) (ph : EncoderPhase) : PositionUnit :=
  match ph with
  | .a => { u with encA := !u.encA }
  | .b => { u with encB := !u.encB }

/-- The counts that a frontier at `x` moves to reach the deadline (R17, R18). -/
def Deadline.ahead (d : Deadline) (x : Word) : Nat := (d.position - x).toNat

/-- Insert a deadline before the first that the frontier, moving on from `x`, does not reach sooner. -/
def insertReached (x : Word) (d : Deadline) : List Deadline → List Deadline
  | [] => [d]
  | e :: l => if d.ahead x ≤ e.ahead x then d :: e :: l else e :: insertReached x d l

/-- The deadlines in the order in which the frontier, moving on from `x`, reaches them (R18). Those at one position keep
the order in which they were entered (log 10). -/
def reachOrder (x : Word) (l : List Deadline) : List Deadline := l.foldr (insertReached x) []

/-- R17, R18: the frontier takes a new position, and the deadlines it reaches fire in the order in which it reaches them. -/
def PositionUnit.advance (u : PositionUnit) (f : Word) : PositionUnit :=
  { u with
    frontier := f
    deadlines := u.deadlines.filter fun d => decide (wdiff f d.position < 0)
    fired := u.fired ++ reachOrder u.frontier (u.deadlines.filter fun d => decide (0 ≤ wdiff f d.position)) }

/-- R15 to R17: the count moves, and the frontier follows it when it lies past. -/
def PositionUnit.move (u : PositionUnit) (up : Bool) : PositionUnit :=
  let p := if up then u.web + 1 else u.web - 1
  let u := { u with web := p }
  if 0 < wdiff p u.frontier then u.advance p else u

/-- R18, R24, R111: a fired deadline is handed to the block that owns its kind. -/
def State.handOn (s : State) (d : Deadline) : State :=
  match d.kind with
  | .trigger n => s.handEvent (.trigger n)
  | .commit n => s.handEvent (.commit n)
  | .missedCut n => s.handEvent (.missedCut n d.position)
  | .flywheel =>
    State.handEvent { s with pos := { s.pos with flywheelCrossing := some d.position } } (.flywheel d.position)
  | .triggerOff => { s with kg := { s.kg with itrig := false } }

/-- The deadlines that have fired are all handed on, in the order in which they fired (log 2). -/
def State.handAll (s : State) : State :=
  s.pos.fired.foldl State.handOn { s with pos := { s.pos with fired := [] } }

/-- The fired deadline of a kind that may be handed on now: all that fired before it stand at its own position (R18:
deadlines at different positions fire in the order in which the frontier reaches them). -/
def firedDeadline? (l : List Deadline) (k : DeadlineKind) : Option Deadline :=
  match l.find? (·.kind = k) with
  | none => none
  | some d => if (l.takeWhile (·.kind ≠ k)).all (·.position = d.position) then some d else none

/-- R18: the deadline of a kind that has fired is handed on; one that has not fired is left where it is. -/
def State.fire (s : State) (k : DeadlineKind) : State :=
  match firedDeadline? s.pos.fired k with
  | none => s
  | some d => State.handOn { s with pos := { s.pos with fired := s.pos.fired.erase d } } d

/-- ENCODER_EDGE: a legal edge moves P by one count; the frontier and the reversal check follow (R15 to R18, R20). -/
def execEncoderEdge (ph : EncoderPhase) (s : State) : Result :=
  s.awake fun s =>
    let s := s.handAll
    let up := countsUp s.pos s.straps.dir ph
    State.checkReversal { s with pos := (s.pos.toggle ph).move up }

/-- ENCODER_FAULT: an illegal transition leaves P unchanged and is a fatal fault; the new joint state becomes the
reference (R15, R48). -/
def execEncoderFault (s : State) : Result :=
  s.awake fun s =>
    State.fatalFault { s with pos := (s.pos.toggle .a).toggle .b } .encoderFault none s.pos.web

/-- The capture at an edge lies behind the frontier and is ignored (R19). -/
def State.captureIgnored (s : State) : Bool := decide (wdiff s.pos.web s.pos.frontier < 0)

/-- MARK_EDGE: the capture is handed on as a creation request, or ignored behind the frontier (R19, R61). -/
def execMarkEdge (s : State) : Result :=
  s.awake fun s => if s.captureIgnored then s else s.handEvent (.mark s.pos.web true)

/-- KNIFE_EDGE: the capture is handed on as a tracking event, or ignored behind the frontier (R19). -/
def execKnifeEdge (s : State) : Result :=
  s.awake fun s => if s.captureIgnored then s else s.handEvent (.knife s.pos.web)

/-- FLYWHEEL_DEADLINE: the crossing is handed on as a creation (R24, R61). -/
def execFlywheelDeadline (s : State) : Result := s.awake fun s => s.fire .flywheel

/-- TRIGGER_DEADLINE (R18, R110). -/
def execTriggerDeadline (row : Word) (s : State) : Result := s.awake fun s => s.fire (.trigger row)

/-- TRIGGER_OFF_DEADLINE: ITRIG is deasserted (R111). -/
def execTriggerOffDeadline (s : State) : Result := s.awake fun s => s.fire .triggerOff

/-- COMMIT_DEADLINE (R18, R84). -/
def execCommitDeadline (row : Word) (s : State) : Result := s.awake fun s => s.fire (.commit row)

/-- MISSED_CUT_DEADLINE (R18, R106). -/
def execMissedCutDeadline (row : Word) (s : State) : Result := s.awake fun s => s.fire (.missedCut row)

end Sys2Proof.Machine
end

