-- ==== Sys2Proof/Machine/Dispatch.lean ====
section
/-! DEFINITION. The meaning of every command: one arm for each constructor of Instr. -/

namespace Sys2Proof.Machine

/-- The effect of a command on everything but the queue. -/
def exec (i : Instr) (s : State) : Host.Outcome State Fault Refusal :=
  match i with
  | .resetNAsserted strapSafe => Sys2Proof.Machine.execResetNAsserted strapSafe s
  | .resetNReleased straps encA encB => Sys2Proof.Machine.execResetNReleased straps encA encB s
  | .encoderEdge phase => Sys2Proof.Machine.execEncoderEdge phase s
  | .encoderFault => Sys2Proof.Machine.execEncoderFault s
  | .markEdge => Sys2Proof.Machine.execMarkEdge s
  | .knifeEdge => Sys2Proof.Machine.execKnifeEdge s
  | .flywheelDeadline => Sys2Proof.Machine.execFlywheelDeadline s
  | .rowCreation => Sys2Proof.Machine.execRowCreation s
  | .triggerDeadline row => Sys2Proof.Machine.execTriggerDeadline row s
  | .triggerEvent => Sys2Proof.Machine.execTriggerEvent s
  | .triggerOffDeadline => Sys2Proof.Machine.execTriggerOffDeadline s
  | .commitDeadline row => Sys2Proof.Machine.execCommitDeadline row s
  | .commit => Sys2Proof.Machine.execCommit s
  | .missedCutDeadline row => Sys2Proof.Machine.execMissedCutDeadline row s
  | .missedCutEvent => Sys2Proof.Machine.execMissedCutEvent s
  | .knifeEvent => Sys2Proof.Machine.execKnifeEvent s
  | .reversalForcing => Sys2Proof.Machine.execReversalForcing s
  | .offerExpiry lane => Sys2Proof.Machine.execOfferExpiry lane s
  | .backoffExpiry lane => Sys2Proof.Machine.execBackoffExpiry lane s
  | .rangeStep => Sys2Proof.Machine.execRangeStep s
  | .selectFall port => Sys2Proof.Machine.execSelectFall port s
  | .selectRise port bits => Sys2Proof.Machine.execSelectRise port bits s
  | .poll port tag => Sys2Proof.Machine.execPoll port tag s
  | .takeNotice port tag page => Sys2Proof.Machine.execTakeNotice port tag page s
  | .peekNotice port tag page => Sys2Proof.Machine.execPeekNotice port tag page s
  | .fetchSummary port tag => Sys2Proof.Machine.execFetchSummary port tag s
  | .setAttention port tag level => Sys2Proof.Machine.execSetAttention port tag level s
  | .portClear port tag => Sys2Proof.Machine.execPortClear port tag s
  | .readStatus port tag page => Sys2Proof.Machine.execReadStatus port tag page s
  | .readRow port tag row page => Sys2Proof.Machine.execReadRow port tag row page s
  | .readStack port tag id page => Sys2Proof.Machine.execReadStack port tag id page s
  | .readLane port tag lane page => Sys2Proof.Machine.execReadLane port tag lane page s
  | .rangeTally port tag first length mask => Sys2Proof.Machine.execRangeTally port tag first length mask s
  | .rangeForce port tag first length mask => Sys2Proof.Machine.execRangeForce port tag first length mask s
  | .rangeOverrule port tag first length mask => Sys2Proof.Machine.execRangeOverrule port tag first length mask s
  | .jobLoadPart port tag part => Sys2Proof.Machine.execJobLoadPart port tag part s
  | .jobLoad port tag part rest => Sys2Proof.Machine.execJobLoad port tag part rest s
  | .jobSwitch port tag slot atRow => Sys2Proof.Machine.execJobSwitch port tag slot atRow s
  | .arm port tag slot => Sys2Proof.Machine.execArm port tag slot s
  | .disarm port tag => Sys2Proof.Machine.execDisarm port tag s
  | .restart port tag => Sys2Proof.Machine.execRestart port tag s
  | .resetTracking port tag => Sys2Proof.Machine.execResetTracking port tag s
  | .faultClear port tag => Sys2Proof.Machine.execFaultClear port tag s
  | .readFault port tag => Sys2Proof.Machine.execReadFault port tag s
  | .lineMode port tag line lane mode => Sys2Proof.Machine.execLineMode port tag line lane mode s
  | .lineSet port tag line lane => Sys2Proof.Machine.execLineSet port tag line lane s
  | .lineClear port tag line lane => Sys2Proof.Machine.execLineClear port tag line lane s
  | .clearPocket port tag lane scope => Sys2Proof.Machine.execClearPocket port tag lane scope s
  | .clearTallies port tag mask => Sys2Proof.Machine.execClearTallies port tag mask s
  | .grade port tag row mask grades => Sys2Proof.Machine.execGrade port tag row mask grades s
  | .triggerRow port tag => Sys2Proof.Machine.execTriggerRow port tag s
  | .accept port tag id counted => Sys2Proof.Machine.execAccept port tag id counted s
  | .decline port tag id => Sys2Proof.Machine.execDecline port tag id s
  | .setOfferWindow port tag cuts => Sys2Proof.Machine.execSetOfferWindow port tag cuts s

end Sys2Proof.Machine
end

