-- ==== Sys2Proof/Machine/Pins.lean ====
section
/-! DEFINITION. What the outside sees: reply frames, data-out bits, attention lines and field pins, as functions of the
state (R98, R147, R160, R168, R173). -/

namespace Sys2Proof.Machine

/-- The 16 bytes of a reply (R173). -/
def Reply.frame (r : Reply) : List Byte :=
  BitVec.ofNat 8 (r.code.code + 16 * r.state.code) :: r.tag :: r.flags.byte ::
    (r.result ++ List.replicate Config.resultBytes 0).take Config.resultBytes

/-- The bit that the port drives on a clock of its exchange, the first clock being 0; past the sixteenth byte it drives
zeros, and with the select high it drives nothing (R160, R162). DESIGN CHOICE (log 16): while RESET_N is low an exchange that
is still open keeps driving its frame. -/
def State.dataOut (s : State) (p : Port) (clock : Nat) : Option Bool :=
  (s.port p).exchange.map fun x => (x.out.frame.getD (clock / 8) 0).getLsbD (7 - clock % 8)

/-- A notice reaches the threshold (R168). -/
def Notice.reaches (n : Notice) (t : Threshold) : Bool := decide (t.code ≤ n.kind.level)

/-- Some held stack is OFFERED (R147). -/
def State.someOffer (s : State) : Bool :=
  s.pock.lanes.any fun l => (l.heldStack.map fun k => decide (k.state = .offered)).getD false

/-- The attention line of a port (R147, R168). -/
def State.attention (s : State) (p : Port) : Bool :=
  !s.inReset && ((s.port p).notices.any (·.reaches (s.port p).threshold) || (decide (p = .delivery) && s.someOffer))

/-- The level of a gate pin, `true` high (R98). -/
def State.gatePin (s : State) (lane : Nat) : Bool :=
  if s.inReset then s.strapSafePin
  else if ((s.kg.gates[lane]?).map (·.on)).getD false then !s.straps.safe else s.straps.safe

/-- The level of a separator pin, `true` high (R98). -/
def State.sepPin (s : State) (lane : Nat) : Bool := !s.inReset && ((s.kg.seps[lane]?).map (·.on)).getD false

/-- The level of ITRIG, `true` high (R98). -/
def State.itrigPin (s : State) : Bool := !s.inReset && s.kg.itrig

end Sys2Proof.Machine
end

