-- ==== Sys2Proof/Safety.lean ====
section
/-! DEFINITION. What counts as a safe state of the controller and as a lawful change of a row record, in the terms of the
claims. Every predicate here is the manual's own promise about all states or all changes. -/

namespace Sys2Proof

/-- The ports on which each kind, by its code, is permitted (R171). -/
def permittedPorts : List (List Port) :=
  List.replicate 11 [.line, .inspection, .delivery] ++ [[.line, .inspection]] ++ List.replicate 14 [.line] ++
    List.replicate 2 [.inspection] ++ List.replicate 3 [.delivery]

/-- The codes of the kinds that wait at the Table Access Unit (R171). -/
def tauKinds : List Nat := [6, 7, 10, 11, 12, 26]

/-- The `n` least significant bytes of a value, the least significant first (R160). -/
def leBytes (n : Nat) {w : Nat} (v : BitVec w) : List Byte := (List.range n).map fun i => v.extractLsb' (8 * i) 8

/-- The kind code of a request and its argument bytes, from byte 2 of its frame on; `present` is the byte with which an
ACCEPT says that it carries a quantity (R171, R174). -/
def Request.spelled (r : Request) (present : Byte) : Nat × List Byte :=
  match r with
  | .takeNotice page => (1, [page])
  | .peekNotice page => (2, [page])
  | .fetchSummary => (3, [])
  | .setAttention level => (4, [level])
  | .portClear => (5, [])
  | .readStatus page => (6, [page])
  | .readRow row page => (7, leBytes 4 row ++ [page])
  | .readStack id page => (8, leBytes 2 id ++ [page])
  | .readLane lane page => (9, [lane, page])
  | .rangeTally first length mask => (10, leBytes 4 first ++ leBytes 2 length ++ [mask])
  | .rangeForce first length mask => (11, leBytes 4 first ++ leBytes 2 length ++ [mask])
  | .rangeOverrule first length mask => (12, leBytes 4 first ++ leBytes 2 length ++ [mask])
  | .jobLoadPart part =>
    (13, [1, part.slot] ++ leBytes 3 part.rn ++ leBytes 3 part.lk ++ leBytes 3 part.li ++ leBytes 3 part.lead)
  | .jobLoad rest =>
    (13, [2] ++ leBytes 2 rest.wc ++ leBytes 3 rest.tolerance ++ leBytes 2 rest.target ++
      [rest.k, rest.j, rest.missLimit, rest.lanes, rest.policies])
  | .jobSwitch slot atRow => (14, [slot] ++ leBytes 4 atRow)
  | .arm slot => (15, [slot])
  | .disarm => (16, [])
  | .restart => (17, [])
  | .resetTracking => (18, [])
  | .faultClear => (19, [])
  | .readFault => (20, [])
  | .lineMode line lane mode => (21, [line, lane, mode])
  | .lineSet line lane => (22, [line, lane])
  | .lineClear line lane => (23, [line, lane])
  | .clearPocket lane scope => (24, [lane, scope])
  | .clearTallies mask => (25, [mask])
  | .grade row mask grades => (26, leBytes 4 row ++ [mask, BitVec.ofNat 8 grades.length] ++ grades)
  | .triggerRow => (27, [])
  | .accept id none => (28, leBytes 2 id ++ [0])
  | .accept id (some counted) => (28, leBytes 2 id ++ [present] ++ leBytes 2 counted)
  | .decline id => (29, leBytes 2 id)
  | .setOfferWindow cuts => (30, leBytes 2 cuts)

/-- The bytes of a request's frame up to its last argument (R174). -/
def Taken.bytes (t : Taken) (present : Byte) : List Byte :=
  BitVec.ofNat 8 (t.request.spelled present).1 :: t.tag :: (t.request.spelled present).2

/-- The request waits at the Table Access Unit (R75, R171). -/
abbrev Request.Waits (r : Request) : Prop := (r.spelled 1).1 ∈ tauKinds

/-- The grade list of a GRADE fits its frame (R174). -/
abbrev Request.Fits (r : Request) : Prop :=
  match r with
  | .grade _ _ grades => grades.length ≤ 8
  | _ => True

/-- The number of lanes that a mask names. -/
def lanesNamed (mask : Byte) : Nat := (List.range 8).countP fun i => mask.getLsbD i

/-- The bits that clock bytes in, the most significant bit of each byte first (R160). -/
def bitsOf (f : List Byte) : List Bool := f.flatMap fun b => (List.range 8).map fun i => b.getLsbD (7 - i)

/-- The command that carries a request on a port. `first` is the operand with which a JOB_LOAD names its first part. -/
def Taken.command (p : Port) (t : Taken) (first : JobPart) : Instr :=
  match t.request with
  | .takeNotice page => .takeNotice p t.tag page
  | .peekNotice page => .peekNotice p t.tag page
  | .fetchSummary => .fetchSummary p t.tag
  | .setAttention level => .setAttention p t.tag level
  | .portClear => .portClear p t.tag
  | .readStatus page => .readStatus p t.tag page
  | .readRow row page => .readRow p t.tag row page
  | .readStack id page => .readStack p t.tag id page
  | .readLane lane page => .readLane p t.tag lane page
  | .rangeTally first length mask => .rangeTally p t.tag first length mask
  | .rangeForce first length mask => .rangeForce p t.tag first length mask
  | .rangeOverrule first length mask => .rangeOverrule p t.tag first length mask
  | .jobLoadPart part => .jobLoadPart p t.tag part
  | .jobLoad rest => .jobLoad p t.tag first rest
  | .jobSwitch slot atRow => .jobSwitch p t.tag slot atRow
  | .arm slot => .arm p t.tag slot
  | .disarm => .disarm p t.tag
  | .restart => .restart p t.tag
  | .resetTracking => .resetTracking p t.tag
  | .faultClear => .faultClear p t.tag
  | .readFault => .readFault p t.tag
  | .lineMode line lane mode => .lineMode p t.tag line lane mode
  | .lineSet line lane => .lineSet p t.tag line lane
  | .lineClear line lane => .lineClear p t.tag line lane
  | .clearPocket lane scope => .clearPocket p t.tag lane scope
  | .clearTallies mask => .clearTallies p t.tag mask
  | .grade row mask grades => .grade p t.tag row mask grades
  | .triggerRow => .triggerRow p t.tag
  | .accept id counted => .accept p t.tag id counted
  | .decline id => .decline p t.tag id
  | .setOfferWindow cuts => .setOfferWindow p t.tag cuts

/-- The port that a command of a link names. -/
def Instr.port? : Instr → Option Port
  | .selectFall p | .selectRise p _ | .poll p _ | .takeNotice p _ _ | .peekNotice p _ _ | .fetchSummary p _
  | .setAttention p _ _ | .portClear p _ | .readStatus p _ _ | .readRow p _ _ _ | .readStack p _ _ _ | .readLane p _ _ _
  | .rangeTally p _ _ _ _ | .rangeForce p _ _ _ _ | .rangeOverrule p _ _ _ _ | .jobLoadPart p _ _ | .jobLoad p _ _ _
  | .jobSwitch p _ _ _ | .arm p _ _ | .disarm p _ | .restart p _ | .resetTracking p _ | .faultClear p _ | .readFault p _
  | .lineMode p _ _ _ _ | .lineSet p _ _ _ | .lineClear p _ _ _ | .clearPocket p _ _ _ | .clearTallies p _ _
  | .grade p _ _ _ _ | .triggerRow p _ | .accept p _ _ _ | .decline p _ _ | .setOfferWindow p _ _ => some p
  | .resetNAsserted _ | .resetNReleased _ _ _ | .encoderEdge _ | .encoderFault | .markEdge | .knifeEdge
  | .flywheelDeadline | .rowCreation | .triggerDeadline _ | .triggerEvent | .triggerOffDeadline | .commitDeadline _
  | .commit | .missedCutDeadline _ | .missedCutEvent | .knifeEvent | .reversalForcing | .offerExpiry _
  | .backoffExpiry _ | .rangeStep => none

end Sys2Proof

namespace Sys2Proof.Machine

/-- The queues and counts with a stated capacity keep to it: sixteen notices in each port (R166), four range requests
(R149), a port-streak count of at most eight (R74). -/
abbrev State.QueuesBounded (s : State) : Prop :=
  s.line.notices.length ≤ 16 ∧ s.insp.notices.length ≤ 16 ∧ s.deliv.notices.length ≤ 16 ∧
    s.rng.queue.length ≤ 4 ∧ s.tau.streak ≤ 8

/-- The row numbers are consecutive, the newest is one less than the next row number, and there are at most 512 records
(R57). -/
abbrev State.RowsNumbered (s : State) : Prop :=
  s.tab.rows.length ≤ 512 ∧
    s.tab.rows.map (·.number) =
      (List.range s.tab.rows.length).map fun i =>
        s.tab.nextRow - BitVec.ofNat 32 (s.tab.rows.length - i)

/-- The suspect list holds at most eight rows and no row twice (R122). -/
abbrev Stack.SuspectsSound (k : Stack) : Prop := k.suspects.length ≤ 8 ∧ k.suspects.Nodup

/-- Every present stack's suspect list is sound (R122). -/
abbrev State.SuspectsSound (s : State) : Prop :=
  ∀ l ∈ s.pock.lanes, (∀ k ∈ l.openStack, k.SuspectsSound) ∧ (∀ k ∈ l.heldStack, k.SuspectsSound)

/-- No two present stacks share an id, no id is 0, and neither is the next one; there are at most six lanes (R119). -/
abbrev State.StackIdsDistinct (s : State) : Prop :=
  s.pock.lanes.length ≤ 6 ∧ s.pock.nextId ≠ 0 ∧ s.presentIds.Nodup ∧ (0 : StackId) ∉ s.presentIds

/-- A count in a range. -/
abbrev within (lo hi n : Nat) : Prop := lo ≤ n ∧ n ≤ hi

/-- The fields of a VALID slot keep to their ranges, under a lane limit (R1, R5, R6). -/
abbrev Job.InRange (j : Job) (limit : Nat) : Prop :=
  within 64 1048575 j.rn ∧ within 256 92160 j.lk ∧ j.li + 256 ≤ j.lk ∧ within 1 (j.rn / 4) j.lead ∧
    within 1 (j.rn / 16) j.wc ∧ j.lanes ≠ 0 ∧ (∀ i < 8, j.lanes.getLsbD i = true → i < limit) ∧
    within 10 9999 j.target ∧ j.k ≤ 6 ∧ within 2 5 j.j ∧ within 1 8 j.missLimit ∧ j.tolerance ≤ j.rn / 2

/-- Every VALID slot's fields keep to their ranges (R1). -/
abbrev State.JobsInRange (s : State) : Prop :=
  s.jobs.slots.length = 4 ∧ ∀ n : SlotNumber, ∀ j ∈ s.validJob? n, j.InRange s.limit

/-- Every slot that tracking or a plan names is VALID; IDLE has no slot armed and no switch, HUNT, TRACK and DRAIN have a
slot armed, and a switch is scheduled only beside an armed slot of the same web geometry (R1, R4, R7 to R10, R37, R44). -/
abbrev State.PlansSound (s : State) : Prop :=
  (∀ n : SlotNumber, s.trk.armed = some n ∨ s.jobs.plan = some n ∨ s.jobs.scheduled.map (·.slot) = some n ∨
    s.jobs.carried.map (·.previous) = some n ∨ s.jobs.carried.map (·.new) = some n → (s.validJob? n).isSome = true) ∧
  (s.trk.state = .idle → s.trk.armed = none) ∧
  (s.trk.state = .hunt ∨ s.trk.state = .track ∨ s.trk.state = .drain → s.trk.armed.isSome = true) ∧
  (s.trk.armed = none → s.jobs.scheduled = none ∧ s.jobs.carried = none) ∧
  ∀ w ∈ s.jobs.scheduled, ∀ n ∈ s.trk.armed, (s.job w.slot).rn = (s.job n).rn ∧ (s.job w.slot).lk = (s.job n).lk ∧
    (s.job w.slot).li = (s.job n).li

/-- While a slot is armed, Rm keeps to Rn ± (Rn>>2) and O to O_sync ± (Rn>>4) (R22, R31). -/
abbrev State.TrackerInRange (s : State) : Prop :=
  ∀ n ∈ s.trk.armed, within ((s.job n).rn - (s.job n).rn / 4) ((s.job n).rn + (s.job n).rn / 4) s.trk.rm ∧
    (s.trk.offset - s.trk.oSync).natAbs ≤ (s.job n).rn / 16

/-- An open stack is OPEN with fewer labels than its target, a held one is offered, in backoff or stranded with at most its
target; no stack has more minors than labels, and no target is below 10 (R6, R117, R118, R123, R137). -/
abbrev State.StacksCounted (s : State) : Prop :=
  ∀ l ∈ s.pock.lanes,
    (∀ k ∈ l.openStack, k.state = .opened ∧ k.count < k.target ∧ k.minor ≤ k.count ∧ 10 ≤ k.target) ∧
    ∀ k ∈ l.heldStack, k.state ≠ .opened ∧ k.count ≤ k.target ∧ k.minor ≤ k.count ∧ 10 ≤ k.target

/-- The place of a row state in the table, from its oldest end (R60). -/
def RowState.place : RowState → Nat
  | .cut => 0
  | .missed => 0
  | .committed => 1
  | .travelling => 2

/-- The table holds CUT and MISSED rows at its oldest end, then at most one COMMITTED row, then the TRAVELLING rows
(R60). -/
abbrev State.RowsInStateOrder (s : State) : Prop :=
  s.tab.rows.Pairwise fun r q => r.state.place ≤ q.state.place ∧ (r.state = .committed → q.state = .travelling)

/-- The optional parts of a row record are present when R59 says so, and a late-reject mark stands only on a lane with
disposition STACK of a COMMITTED or CUT row (R59, R91). -/
abbrev Row.PartsPresent (r : Row) : Prop :=
  (r.cutError.isSome = true ↔ r.state = .cut) ∧
  ∀ c ∈ r.lanes,
    (c.disposition.isSome = true ↔ c.grade ≠ .void ∧ r.state ≠ .travelling) ∧
    (c.reason.isSome = true ↔ c.disposition = some .divert) ∧
    (c.stack.isSome = true ↔ r.state = .cut ∧ c.disposition = some .stack) ∧
    (c.late = true → c.disposition = some .stack ∧ (r.state = .committed ∨ r.state = .cut))

/-- The lane of the row goes to its pocket at the row's cut (R85, R128). -/
def Row.sendsTo (r : Row) (lane : Nat) : Bool :=
  decide (r.state = .committed ∧ (r.lanes[lane]?).bind (·.disposition) = some .stack)

/-- Every record has its parts and one entry for each lane below the limit; the pending count of a lane is the number of
its committed labels for the pocket, and where there is one the lane has an open stack (R57 to R59, R87, R117, R128). -/
abbrev State.RecordsSound (s : State) : Prop :=
  s.pock.lanes.length = s.limit ∧
  (∀ r ∈ s.tab.rows, r.PartsPresent ∧ r.lanes.length = s.limit) ∧
  ∀ i : Fin s.pock.lanes.length, s.pock.lanes[i].pendingCount = s.tab.rows.countP (·.sendsTo i) ∧
    (0 < s.pock.lanes[i].pendingCount → s.pock.lanes[i].openStack.isSome = true)

/-- The line is FUNCTIONAL at DIVERT, or FUNCTIONAL and deasserted. -/
abbrev FieldLine.AtRest (l : FieldLine) : Prop := l.mode = .functional ∧ l.on = false

/-- The gate and separator lines of the lanes at or beyond the lane limit are FUNCTIONAL, at DIVERT and deasserted
(R99). -/
abbrev State.AbsentLinesAtRest (s : State) : Prop :=
  (∀ l ∈ s.kg.gates.drop s.limit, l.AtRest) ∧ (∀ l ∈ s.kg.seps.drop s.limit, l.AtRest)

/-- A FUNCTIONAL gate stands at POCKET only for a lane that a COMMITTED row sends to its pocket, and in FAULT none does
(R100). -/
abbrev State.GatesLawful (s : State) : Prop :=
  (∀ i : Fin s.kg.gates.length, s.kg.gates[i].mode = .functional → s.kg.gates[i].on = true →
    ∃ r ∈ s.tab.rows, r.state = .committed ∧ (r.lanes[i.val]?).bind (·.disposition) = some .stack) ∧
  (s.trk.state = .fault → ∀ l ∈ s.kg.gates, l.mode = .functional → l.on = false)

/-- A row state may become another one within one command: a TRAVELLING row commits, a COMMITTED row is cut or declared
missed, and CUT and MISSED are final (R60). -/
def RowState.mayBecome : RowState → RowState → Bool
  | .travelling, st => decide (st = .travelling ∨ st = .committed)
  | .committed, st => decide (st ≠ .travelling)
  | .cut, st => decide (st = .cut)
  | .missed, st => decide (st = .missed)

/-- A grade may become another one: it never falls in severity, but that an OVERRULE step lowers REJECT to GOOD on a
TRAVELLING row, and VOID stays VOID (R79). -/
def Grade.mayBecome (st : RowState) (g h : Grade) : Bool :=
  if g = .void ∨ h = .void then decide (g = h)
  else decide (g.severity ≤ h.severity) || (decide (g = .reject) && decide (h = .good) && decide (st = .travelling))

/-- A lane entry may become another one while its row goes from state `st` to `st'`: the grade as R79 says; the disposition
and the reason are written by the commit and the stack id by the cut, and otherwise stay (R59, R89); a late-reject mark is
set only on a COMMITTED lane with disposition STACK, and dropped only where the row is declared missed (R59, R91). -/
def RowLane.mayBecome (st st' : RowState) (c d : RowLane) : Bool :=
  c.grade.mayBecome st d.grade &&
    (decide (st = .travelling ∧ st' = .committed) ||
      (decide (c.disposition = d.disposition) && decide (c.reason = d.reason))) &&
    (decide (st = .committed ∧ st' = .cut) || decide (c.stack = d.stack)) &&
    (decide (c.late = d.late) || (c.late && decide (st' = .missed)) ||
      (d.late && decide (st = .committed ∧ st' = .committed ∧ c.disposition = some .stack)))

/-- The fields that are fixed at a row's creation are the same (R58). -/
abbrev Row.SameBirth (r q : Row) : Prop :=
  q.number = r.number ∧ q.origin = r.origin ∧ q.clamped = r.clamped ∧ q.slot = r.slot ∧ q.pm = r.pm ∧
    q.trigger = r.trigger ∧ q.arrival = r.arrival ∧ q.commit = r.commit ∧ q.lanes.length = r.lanes.length

/-- A row record may become another one within one command: what is fixed at birth stays, the state passes on as R60 says,
the cut error is written by the cut, TRIGGERED is never cleared, and DOUBLE and MISREGISTERED are written by the commit and
the cut (R58 to R60, R79, R89). -/
abbrev Row.MayBecome (r q : Row) : Prop :=
  r.SameBirth q ∧ r.state.mayBecome q.state = true ∧
    (if r.state = .committed ∧ q.state = .cut then q.cutError.isSome = true else q.cutError = r.cutError) ∧
    (r.triggered = true → q.triggered = true) ∧
    (¬(r.state = .travelling ∧ q.state = .committed) → q.double = r.double) ∧
    (¬(r.state = .committed ∧ q.state = .cut) → q.misregistered = r.misregistered) ∧
    (r.double = true → q.double = true) ∧ (r.misregistered = true → q.misregistered = true) ∧
    ∀ i : Fin r.lanes.length, ∀ d ∈ q.lanes[i.val]?, r.lanes[i].mayBecome r.state q.state d = true

/-- A fault record may become another one without a FAULT_CLEAR: it holds the most severe kind offered, with the row
and position of the first offer of that kind, and MORE stays set (R53). -/
def FaultRecord.mayBecome (r q : FaultRecord) : Bool :=
  (decide (q = r) || decide (q = { r with more := true }) ||
    (decide (r.kind.severity < q.kind.severity) && q.more))

/-- The port after a reply to the request in its slot: REFUSED is set by a refusal (R163). -/
def PortState.replied (q : PortState) (st : TrackingState) (tag : Byte) (code : ReplyCode) (result : List Byte) :
    PortState :=
  { q with
    request := none
    flags := { q.flags with refused := q.flags.refused || code.refuses }
    reply := some ⟨code, tag, st, { q.flags with refused := q.flags.refused || code.refuses }, result⟩ }

/-- The part is out of reset and the port would take the frame of a request now: the exchange in progress did not drive out
STALL, or none is in progress and one that began now would drive out a reply or IDLE (R161, R162). A request command is
the exchange that brings its frame (log 3). -/
abbrev State.Ready (s : State) (p : Port) : Prop :=
  s.inReset = false ∧ (∀ x ∈ (s.port p).exchange, x.driven ≠ .stall) ∧
    ((s.port p).exchange = none → (s.port p).request = none ∨ (s.port p).reply.isSome = true)

/-- The part is out of reset and the request waits in the port's slot. -/
abbrev State.Waits (s : State) (p : Port) (tag : Byte) (r : Request) : Prop :=
  s.inReset = false ∧ (s.port p).request = some ⟨tag, r⟩

/-- The request also holds the grant of the Table Access Unit (R72 to R74). -/
abbrev State.Granted (s : State) (p : Port) (tag : Byte) (r : Request) : Prop :=
  s.Waits p tag r ∧ s.nextGrant = some (.port p)

/-- The port's exchange has ended with a frame that is taken, and a frame on the Line Port has emptied the part buffer
(R161, R164). The reply that was in the slot gives way to that of the request. -/
def State.frameTaken (s : State) (p : Port) : State :=
  { s.setPort p { s.port p with exchange := none } with partBuffer := if p = .line then none else s.partBuffer }

/-- The tracking event is the oldest that waits, with `rest` behind it, and the part is out of reset. -/
abbrev State.EventFirst (s : State) (e : TrackingEvent) (rest : List TrackingEvent) : Prop :=
  s.inReset = false ∧ s.tau.events = e :: rest

/-- The notices are appended in this order. -/
def PortState.appendAll (q : PortState) (l : List Notice) : PortState := l.foldl PortState.append q

/-- STATE_CHANGE at a web position (R38, R172). -/
abbrev stateChangeNotice (st : TrackingState) (p : Word) : Notice :=
  ⟨.stateChange, none, none, none, some p, [BitVec.ofNat 16 st.code]⟩

/-- A 32-bit value as two figures, low half first (R172). -/
abbrev twoFigures (w : Word) : List (BitVec 16) := [w.extractLsb' 0 16, w.extractLsb' 16 16]

/-- The results of a range request as figures: three for FORCE and OVERRULE, five for TALLY (R172). -/
def RangeEntry.doneFigures (e : RangeEntry) : List (BitVec 16) :=
  if e.kind = .tally then [e.pending, e.good, e.minor, e.condemning, e.gone].map (BitVec.ofNat 16)
  else [e.applied, e.late, e.gone].map (BitVec.ofNat 16)

/-- RANGE_DONE of an entry; status 0 is COMPLETE and 1 ABANDONED (R155, R156, R172). -/
def RangeEntry.doneNotice (e : RangeEntry) (status : Nat) (p : Word) : Notice :=
  ⟨.rangeDone, some e.first, none, none, some p,
    BitVec.ofNat 16 e.number.toNat :: BitVec.ofNat 16 (e.kind.code + 256 * status) ::
      BitVec.ofNat 16 e.stepped :: e.doneFigures⟩

/-- The RANGE_DONE notices that an abandonment of the queue sends to a port, head first (R156). -/
def State.abandoned (s : State) (p : Port) : List Notice :=
  (s.rng.queue.filter fun e => decide (e.port = p)).map fun e => e.doneNotice 1 s.pos.web

/-- A FUNCTIONAL line at DIVERT or deasserted, a MANUAL line as it was (R100, R109, R113). -/
def FieldLine.rested (l : FieldLine) : FieldLine := ⟨l.mode, l.on && decide (l.mode = .manual), l.stored⟩

/-- The deadlines of `t` are those of `s` without the dropped kinds, and the new ones: a new one that the frontier has
reached has fired (R18). -/
abbrev DeadlinesEntered (s t : State) (dropped : DeadlineKind → Bool) (new : List Deadline) : Prop :=
  t.pos.deadlines = (s.pos.deadlines.filter fun d => !dropped d.kind) ++
      (new.filter fun d => decide (wdiff s.pos.frontier d.position < 0)) ∧
    t.pos.fired = (s.pos.fired.filter fun d => !dropped d.kind) ++
      (new.filter fun d => decide (0 ≤ wdiff s.pos.frontier d.position))

/-- The list `m` holds the deadlines of `l` in the order in which a frontier moving on from `x` reaches their positions
(R18), those at one position in the order of `l` (log 10). -/
abbrev ReachedInOrder (x : Word) (l m : List Deadline) : Prop :=
  (m.Pairwise fun d e => (d.position - x).toNat ≤ (e.position - x).toNat) ∧
    ∀ d ∈ l ++ m, (m.filter fun e => decide (e.position = d.position)) =
      l.filter fun e => decide (e.position = d.position)

/-- The effects of a fatal fault taken out of FAULT (R48, R49): the deadlines lose the flywheel, the FUNCTIONAL gates
stand at DIVERT, the range queue is abandoned, the kind is offered, and the notices FAULT and STATE_CHANGE are placed.
Nothing else differs. -/
abbrev FaultEntered (s t : State) (k : FaultKind) (row : Option Word) (x : Word) : Prop :=
  DeadlinesEntered s t (fun d => decide (d = .flywheel)) [] ∧
  t = { s with
    pos := { s.pos with deadlines := t.pos.deadlines, fired := t.pos.fired, flywheelCrossing := none }
    trk := { s.trk with state := .fault, fault := some (offeredRecord s.trk.fault k row x) }
    kg := { s.kg with gates := s.kg.gates.map (·.rested) }
    rng := { s.rng with queue := [] }
    tau := { s.tau with streak := 0 }
    line := ((s.line.appendAll (s.abandoned .line)).append
      ⟨.fault, row, none, none, some x, [BitVec.ofNat 16 k.code]⟩).append (stateChangeNotice .fault s.pos.web)
    insp := (s.insp.appendAll (s.abandoned .inspection)).append
      ⟨.fault, row, none, none, some x, [BitVec.ofNat 16 k.code]⟩
    deliv := (s.deliv.appendAll (s.abandoned .delivery)).append
      ⟨.fault, row, none, none, some x, [BitVec.ofNat 16 k.code]⟩ }

/-- The sequence of (ENC_A, ENC_B) that counts the web position up, by the latched direction strap (R15). -/
def upSequence (dir : Bool) : List (Bool × Bool) :=
  if dir then [(false, false), (false, true), (true, true), (true, false), (false, false)]
  else [(false, false), (true, false), (true, true), (false, true), (false, false)]

/-- The joint encoder state after one phase changes. -/
def toggled (ph : EncoderPhase) (e : Bool × Bool) : Bool × Bool :=
  match ph with
  | .a => (!e.1, e.2)
  | .b => (e.1, !e.2)

/-- The tracking event that a fired deadline becomes; the trigger-off deadline becomes none (R18, R111). -/
def Deadline.event? (d : Deadline) : Option TrackingEvent :=
  match d.kind with
  | .trigger n => some (.trigger n)
  | .commit n => some (.commit n)
  | .missedCut n => some (.missedCut n d.position)
  | .flywheel => some (.flywheel d.position)
  | .triggerOff => none

/-- The table has room for a creation, or makes it by an early retirement (R61). -/
abbrev State.HasRoom (s : State) : Prop :=
  s.tab.rows.length < 512 ∨ ∃ r ∈ s.tab.rows.head?, r.state = .cut ∨ r.state = .missed

/-- The records that stay when a creation has made its room (R61). -/
def State.keptRows (s : State) : List Row := if s.tab.rows.length < 512 then s.tab.rows else s.tab.rows.tail

/-- The deadline belongs to the row that a creation retires early (R18, R61). -/
def State.retiredEarly (s : State) (k : DeadlineKind) : Bool :=
  decide (512 ≤ s.tab.rows.length ∧ ∃ r ∈ s.tab.rows.head?, k.row? = some r.number)

/-- The slot of the next row to be created, the slot `n` being armed (R10, R62). -/
def State.creationSlot (s : State) (n : SlotNumber) : SlotNumber :=
  match s.jobs.scheduled with
  | some w => if w.atRow = s.tab.nextRow then w.slot else n
  | none => n

/-- The Job Store after the next creation, the slot `n` being armed: a scheduled switch whose row it is becomes the
carried switch (R10). -/
def State.creationJobs (s : State) (n : SlotNumber) : JobStore :=
  match s.jobs.scheduled with
  | some w =>
    if w.atRow = s.tab.nextRow then { s.jobs with scheduled := none, carried := some ⟨n, w.slot, w.atRow⟩ }
    else s.jobs
  | none => s.jobs

/-- The row's arrival is too close to that of the newest row before it, and that one is not too old to compare (R29). -/
def State.tooClose (s : State) (arrival : Word) (rm : Nat) : Bool :=
  match s.keptRows.getLast? with
  | none => false
  | some p =>
    decide (wdiff arrival p.arrival < ((rm + 1) / 2 : Nat)) &&
      !(decide (p.state = .cut ∨ p.state = .missed) && decide ((2 : Int) ^ 30 ≤ wdiff s.pos.frontier p.arrival))

/-- The record that a creation in the state `s` writes, under the slot `m`, from a mark position, the offsets and the
filtered repeat (R28, R29, R62, R63). -/
abbrev Row.BornAs (q : Row) (s : State) (m : SlotNumber) (origin : Origin) (pm : Word) (offset oi : Word) (rm : Nat) :
    Prop :=
  q.number = s.tab.nextRow ∧ q.origin = origin ∧ q.slot = m ∧ q.pm = pm ∧ q.state = .travelling ∧
  q.triggered = false ∧ q.double = false ∧ q.misregistered = false ∧ q.cutError = none ∧
  q.clamped = s.tooClose (pm + offset) rm ∧
  (q.clamped = false → q.arrival = pm + offset) ∧
  (q.clamped = true → ∀ p ∈ s.keptRows.getLast?, q.arrival = p.arrival + BitVec.ofNat 32 ((rm + 1) / 2)) ∧
  q.trigger = pm + oi + (q.arrival - (pm + offset)) ∧
  q.commit = q.arrival - BitVec.ofNat 32 (s.job m).lead ∧
  q.lanes = (List.range s.limit).map fun i =>
    ⟨if !(s.job m).lanes.getLsbD i then .void
      else if q.clamped || (decide (origin = .flywheel) && decide ((s.job m).flywheel = .reject)) then .forced
      else .pending, none, none, none, false⟩

/-- The deadlines of a row (R18, R28). -/
def Row.deadlines (q : Row) (wc : Nat) : List Deadline :=
  [⟨q.trigger, .trigger q.number⟩, ⟨q.commit, .commit q.number⟩,
    ⟨q.arrival + BitVec.ofNat 32 wc, .missedCut q.number⟩]

/-- The flywheel deadline at Pm_last + Rm + h (R18, R28). -/
def flywheelAt (pm : Word) (rm j : Nat) : Deadline :=
  ⟨pm + BitVec.ofNat 32 rm + BitVec.ofNat 32 (rm >>> j), .flywheel⟩

/-- The waits that follow the first to the fifth decline (R141). -/
def backoffWaits : List Nat := [2, 4, 8, 16, 32]

/-- A held stack after one more decline: the table of R141, a count above 5 stranding it. -/
def Stack.afterDecline (k : Stack) : Stack :=
  match backoffWaits[k.declines]? with
  | some w => { k with declines := k.declines + 1, state := .backoff, remaining := some w }
  | none => { k with declines := k.declines + 1, state := .stranded, remaining := none }

/-- A held stack that is offered again (R141). -/
def Stack.offeredAgain (k : Stack) (setting : Nat) : Stack := { k with state := .offered, remaining := some setting }

/-- A held stack after one cut under an offer setting (R138, R140, R141). -/
def Stack.afterCut (setting : Nat) (k : Stack) : Stack :=
  match k.state with
  | .opened | .stranded => k
  | .offered =>
    if k.remaining.map (· - 1) = some 0 then { k with remaining := some 0 }.afterDecline
    else { k with remaining := k.remaining.map (· - 1) }
  | .backoff =>
    if k.remaining.map (· - 1) = some 0 then k.offeredAgain setting
    else { k with remaining := k.remaining.map (· - 1) }

/-- STACK_OFFER of a lane's stack (R137, R172). -/
def Stack.offerNoticeAt (k : Stack) (lane : Nat) (p : Word) : Notice :=
  ⟨.stackOffer, none, some k.id, some lane, some p, [BitVec.ofNat 16 k.count, BitVec.ofNat 16 k.flagsByte.toNat]⟩

/-- STACK_STRANDED of a lane's stack (R142, R172). -/
def Stack.strandedNoticeAt (k : Stack) (lane : Nat) (p : Word) : Notice :=
  ⟨.stackStranded, none, some k.id, some lane, some p, [BitVec.ofNat 16 k.count, BitVec.ofNat 16 k.flagsByte.toNat]⟩

/-- The notice that one cut raises for a lane's held stack: STACK_OFFER for one offered again, STACK_STRANDED for one
that its expiry strands (R141, R142). -/
def State.cutNotice? (s : State) (lane : Nat) : Option Notice :=
  match s.heldStack? lane with
  | none => none
  | some k =>
    if k.state = .backoff ∧ (k.afterCut s.offerSetting).state = .offered then some (k.offerNoticeAt lane s.pos.web)
    else if k.state = .offered ∧ (k.afterCut s.offerSetting).state = .stranded then
      some (k.strandedNoticeAt lane s.pos.web)
    else none

/-- The notices of one cut handed to the Delivery Unit, in ascending lane order (R138; log 24). -/
def State.cutNotices (s : State) : List Notice := (List.range s.limit).filterMap s.cutNotice?

/-- The lane entry has this grade state: it is active and its grade is not condemning. -/
def RowLane.spared (c : RowLane) : Bool := decide (c.grade = .pending ∨ c.grade = .good ∨ c.grade = .minor)

/-- A row after FORCED is merged into every active lane (R80, R91, R95). -/
def Row.condemned (r : Row) : Row :=
  { r with lanes := r.lanes.map fun c =>
      if c.grade = .void then c
      else { c with
        grade := .forced
        late := c.late || (c.spared && decide (r.state = .committed) && decide (c.disposition = some .stack)) } }

/-- The rows that a retirement after a cut or a missed cut leaves: the oldest goes when more than sixteen are CUT or
MISSED (R66). -/
def retained (rows : List Row) : List Row :=
  if 16 < rows.countP (fun r => decide (r.state = .cut ∨ r.state = .missed)) then rows.tail else rows

/-- The deadline belongs to the row that such a retirement removes (R18, R66). -/
def retiredAfter (rows : List Row) (k : DeadlineKind) : Bool :=
  decide (16 < rows.countP (fun r => decide (r.state = .cut ∨ r.state = .missed)) ∧
    ∃ r ∈ rows.head?, k.row? = some r.number)

/-- Some row of the list is TRAVELLING or COMMITTED (R42, R43). -/
def leftToDrain (rows : List Row) : Bool := rows.any fun r => decide (r.state = .travelling ∨ r.state = .committed)

/-- A stack after a row is added to its suspect list (R122). -/
def Stack.withSuspect (k : Stack) (n : Word) : Stack :=
  if k.suspects.contains n then k
  else if 8 ≤ k.suspects.length then { k with overflowed := true }
  else { k with suspects := k.suspects ++ [n] }

/-- A stack after a label of a row lands in it (steps 2, 3 and 5 of R121). -/
def Stack.afterLanding (k : Stack) (n : Word) (minor doubted : Bool) : Stack :=
  let k' := { k with
    count := k.count + 1
    minor := k.minor + (if minor then 1 else 0)
    firstRow := if k.count = 0 then some n else k.firstRow
    lastRow := some n }
  if doubted then k'.withSuspect n else k'

/-- A stack as it is made the held stack (R137). -/
def Stack.handedOver (k : Stack) (setting : Nat) : Stack :=
  { k with state := .offered, declines := 0, remaining := some setting }

/-- The lane's open stack is new: empty and OPEN, under this slot and target (R118, R120). -/
abbrev State.OpensNew (t : State) (lane : Nat) (slot : SlotNumber) (target : Nat) : Prop :=
  ∃ o ∈ t.openStack? lane, o = ⟨o.id, lane, slot, target, 0, 0, none, none, false, false, false, false, [], false,
    .opened, 0, none⟩

/-- The id that is offered `j` places after `n`; after 65,535 the offer goes on at 1 (R119). -/
def offeredId (n : StackId) (j : Nat) : StackId := BitVec.ofNat 16 (1 + (n.toNat + 65534 + j) % 65535)

/-- The ids, among the next twenty-four offered from `n` on, that no present stack holds (R119). Twelve stacks are present
at most, and six open at once. -/
def freeIds (n : StackId) (present : List StackId) : List StackId :=
  ((List.range 24).map (offeredId n)).filter fun i => !present.contains i

/-- The slot and target of a stack that replaces `k`: those of the plan in force, or of `k` (R120). -/
def State.nextPlan (s : State) (k : Stack) : SlotNumber × Nat :=
  match s.jobs.plan with
  | some n => (n, (s.job n).target)
  | none => (k.slot, k.target)

/-- The level of a separator after its lane's open stack is made the held stack (R108). -/
def FieldLine.pulsed (l : FieldLine) : FieldLine := if l.mode = .functional then { l with on := true } else l

/-- A reply is placed in a port's reply slot (R163). -/
def State.reply (s : State) (p : Port) (tag : Byte) (code : ReplyCode) (result : List Byte) : State :=
  s.setPort p ((s.port p).replied s.trk.state tag code result)

/-- What a command of the press or of another port may do to a port: notices join its queue, and NOTICE_LOST or
SPURIOUS_MARK may be set (R165, R166, R170). -/
abbrev PortState.MayBecome (q q' : PortState) : Prop :=
  q.notices <+: q'.notices ∧ (q.flags.noticeLost = true → q'.flags.noticeLost = true) ∧
    (q.flags.spuriousMark = true → q'.flags.spuriousMark = true) ∧
    q' = { q with
      notices := q'.notices
      flags := { q.flags with noticeLost := q'.flags.noticeLost, spuriousMark := q'.flags.spuriousMark } }

/-- What a port's slots hold together: the reply slot and the request slot are never both full, a request that waits is one
that the port takes and that is served through the Table Access Unit, and an exchange drives out the reply in the slot, a
STALL that began over a waiting request, or an IDLE over two empty slots; a result has at most 13 bytes (R161, R163, R171,
R173). -/
abbrev PortState.SlotsSound (q : PortState) (p : Port) : Prop :=
  (∀ t ∈ q.request, q.reply = none ∧ t.request.Waits ∧ p ∈ permittedPorts.getD (t.request.spelled 1).1 []) ∧
  (∀ r ∈ q.reply, r.result.length ≤ 13) ∧
  ∀ x ∈ q.exchange, x.out.result.length ≤ 13 ∧
    (x.driven = .reply → q.reply = some x.out) ∧
    (x.driven = .stall → x.out.code = .stall ∧ (q.request.isSome = true ∨ q.reply.isSome = true)) ∧
    (x.driven = .idle → x.out.code = .idle ∧ q.request = none ∧ q.reply = none)

/-- Every port's slots are sound (R161). -/
abbrev State.PortsSound (s : State) : Prop := ∀ p, (s.port p).SlotsSound p

/-- The form of a frame is at fault: a GRADE list that is not as long as its mask names lanes, or a second JOB_LOAD part
without a first part of its tag in the part buffer (R163, R164, R174). -/
abbrev FormFaulty (buffer : Option PartBuffer) (t : Taken) : Prop :=
  match t.request with
  | .grade _ mask grades => grades.length ≠ lanesNamed mask
  | .jobLoad _ => buffer.map (·.tag) ≠ some t.tag
  | _ => False

/-- The request of a range kind (R150). -/
def rangeRequest (k : RangeKind) (first : Word) (length : BitVec 16) (mask : Byte) : Request :=
  match k with
  | .force => .rangeForce first length mask
  | .overrule => .rangeOverrule first length mask
  | .tally => .rangeTally first length mask

/-- The lanes of a row among the mask whose grade is one of `g` (R154). -/
def Row.tallied (r : Row) (mask : Byte) (g : List Grade) : Nat :=
  r.lanes.zipIdx.countP fun c => mask.getLsbD c.2 && g.contains c.1.grade

/-- A row after FORCED is merged into its masked active lanes (R152). -/
def Row.forcedOn (r : Row) (mask : Byte) : Row :=
  { r with lanes := r.lanes.mapIdx fun i c =>
      if mask.getLsbD i && decide (c.grade ≠ .void) then
        { c with
          grade := .forced
          late := c.late || (c.spared && decide (r.state = .committed) && decide (c.disposition = some .stack)) }
      else c }

/-- A row after its masked lanes at REJECT take GOOD (R153). -/
def Row.overruledOn (r : Row) (mask : Byte) : Row :=
  { r with lanes := r.lanes.mapIdx fun i c =>
      if mask.getLsbD i && decide (c.grade = .reject) then { c with grade := .good } else c }

/-- A range entry after a step that looked its next row up (R151 to R154). -/
def RangeEntry.afterStep (e : RangeEntry) (found : Lookup) : RangeEntry :=
  let e' := { e with stepped := e.stepped + 1, next := e.next + 1 }
  match found with
  | .notYet => e'
  | .gone => { e' with gone := e.gone + 1 }
  | .found r =>
    if e.kind = .tally then
      { e' with
        pending := e.pending + r.tallied e.mask [.pending]
        good := e.good + r.tallied e.mask [.good]
        minor := e.minor + r.tallied e.mask [.minor]
        condemning := e.condemning + r.tallied e.mask [.reject, .forced] }
    else if r.state = .travelling then { e' with applied := e.applied + 1 }
    else { e' with late := e.late + 1 }

/-- The recorded stack to which a late reject on a lane of the row is routed (R90, R92). -/
def Row.routed? (r : Row) (lane : Nat) : Option StackId :=
  if r.state = .cut then ((r.lanes[lane]?).filter fun c => decide (c.disposition = some .stack)).bind (·.stack)
  else none

/-- The lane's open or held stack has this id (R92). -/
def PocketLane.has (l : PocketLane) (id : StackId) : Bool :=
  l.openStack.any (fun k => decide (k.id = id)) || l.heldStack.any fun k => decide (k.id = id)

/-- LATE_AFTER_DELIVERY for each late lane whose recorded stack is not present, ascending (R92, R94). -/
def State.deliveredLate (s : State) (r : Row) (late : List Nat) : List Notice :=
  late.filterMap fun i => (r.routed? i).bind fun id =>
    if (s.lane? i).any (·.has id) then none
    else some ⟨.lateAfterDelivery, some r.number, some id, some i, some s.pos.web, []⟩

/-- A lane entry after a late reject of a row: the tally rises, and the row joins the suspect list of the recorded stack,
if it is present (R92, R93, R122). -/
def PocketLane.afterLate (l : PocketLane) (r : Row) (lane : Nat) : PocketLane :=
  let mark := fun k : Stack => if r.routed? lane = some k.id then k.withSuspect r.number else k
  { l with lateRejects := l.lateRejects + 1, openStack := l.openStack.map mark, heldStack := l.heldStack.map mark }

/-- The state after the late rejects of one row, on these lanes, are tallied, routed and reported (R90 to R94). -/
def State.lateReported (s : State) (r : Row) (late : List Nat) : State :=
  if late = [] then s
  else
    let notice : Notice :=
      ⟨.lateGrade, some r.number, none, none, some s.pos.web, [BitVec.ofNat 16 (laneMask late).toNat]⟩
    { s with
      pock := { s.pock with lanes := s.pock.lanes.mapIdx fun i l => if i ∈ late then l.afterLate r i else l }
      line := (s.line.append notice).appendAll (s.deliveredLate r late)
      insp := s.insp.append notice
      deliv := s.deliv.appendAll (s.deliveredLate r late) }

/-- The lanes of a COMMITTED, CUT or MISSED row, among those that `g` condemns, that were below REJECT (R90). -/
def Row.newlyLate (r : Row) (g : Nat → Bool) : List Nat :=
  if r.state = .travelling then []
  else (List.range r.lanes.length).filter fun i => g i && (r.lanes[i]?).any (·.spared)

/-- The code that a GRADE carries for a lane: its list runs over the lanes of the mask, lowest first (R82, R174). -/
def gradeCodeFor (mask : Byte) (grades : List Byte) (lane : Nat) : Option Byte :=
  ((maskLanes mask).zip grades).lookup lane

/-- The grade after a merge of GOOD, MINOR or REJECT by its code (R80, R81). -/
def Grade.raisedTo (g : Grade) (code : Byte) : Grade :=
  match g with
  | .void => .void
  | .forced => .forced
  | .reject => .reject
  | .minor => if code = 3 then .reject else .minor
  | .good => if code = 3 then .reject else if code = 2 then .minor else .good
  | .pending => if code = 3 then .reject else if code = 2 then .minor else if code = 1 then .good else .pending

/-- A row after the merge of a GRADE (R80, R82, R91). -/
def Row.gradedOn (r : Row) (mask : Byte) (grades : List Byte) : Row :=
  { r with lanes := r.lanes.mapIdx fun i c =>
      match gradeCodeFor mask grades i with
      | none => c
      | some b =>
        { c with
          grade := c.grade.raisedTo b
          late := c.late ||
            (c.spared && decide (b = 3) && decide (r.state = .committed) && decide (c.disposition = some .stack)) } }

/-- What a closure asked for in every lane does (R44, R52, R126): `fromReset` is one asked for by RESET_TRACKING. -/
abbrev ClosuresAsked (s t : State) (fromReset : Bool) : Prop :=
  t.pock.lanes.length = s.pock.lanes.length ∧
  ∀ i : Fin s.pock.lanes.length, ∀ m ∈ t.lane? i,
    let l := s.pock.lanes[i]
    (s.limit ≤ i.val → m = l) ∧ (l.openStack = none → m = l) ∧
    (i.val < s.limit → ∀ k ∈ l.openStack,
      (k.count = 0 → m = l) ∧
      (k.count ≠ 0 → l.heldStack.isSome = true →
        m = { l with closing := true, deferShort := true, deferUntracked := l.deferUntracked || fromReset }) ∧
      (k.count ≠ 0 → l.heldStack = none →
        m = { l with
          openStack := m.openStack
          heldStack := some
            ({ k with short := true, untracked := k.untracked || fromReset }.handedOver s.offerSetting) } ∧
        t.OpensNew i (s.nextPlan k).1 (s.nextPlan k).2 ∧
        (fromReset = false → t.kg.seps[i.val]? = (s.kg.seps[i.val]?).map (·.pulsed))))

/-- The notice of a closure asked for in a lane: STACK_OFFER where it takes effect at once, and LANE_BLOCKED with CLOSING
where it is deferred in a lane that no reason blocked before (R125, R126, R137). -/
def State.closureNotice? (s : State) (fromReset : Bool) (lane : Nat) : Option Notice :=
  (s.lane? lane).bind fun l => l.openStack.bind fun k =>
    if k.count = 0 then none
    else if l.heldStack = none then
      some (Stack.offerNoticeAt { k with short := true, untracked := k.untracked || fromReset } lane s.pos.web)
    else if l.overflow || l.closing then none
    else some ⟨.laneBlocked, none, none, some lane, some s.pos.web, [2]⟩

/-- The notices of the closures asked for in every lane, in ascending lane order (R137; log 17, log 29). -/
def State.closureNotices (s : State) (fromReset : Bool) : List Notice :=
  (List.range s.limit).filterMap (s.closureNotice? fromReset)

/-- The lane entry after the removal of its held stack, apart from the stack that a deferred closure opens (R127). -/
abbrev HeldRemoved (s t : State) (lane : Nat) (l : PocketLane) : Prop :=
  (l.closing = false ∨ l.openStack = none → t.lane? lane = some { l with heldStack := none, overflow := false }) ∧
  (l.closing = true → ∀ k ∈ l.openStack, ∃ m ∈ t.lane? lane,
    m = { l with
      openStack := m.openStack
      heldStack := some ({ k with
        short := k.short || l.deferShort, untracked := k.untracked || l.deferUntracked }.handedOver s.offerSetting)
      overflow := false, closing := false, deferShort := false, deferUntracked := false } ∧
    t.OpensNew lane (s.nextPlan k).1 (s.nextPlan k).2 ∧
    t.kg.seps[lane]? = (if l.deferUntracked then s.kg.seps[lane]? else (s.kg.seps[lane]?).map (·.pulsed)))

/-- The stack that a deferred closure hands over when the lane's held stack is removed (R127). -/
def PocketLane.deferredStack? (l : PocketLane) : Option Stack :=
  if l.closing then l.openStack.map fun k =>
    { k with short := k.short || l.deferShort, untracked := k.untracked || l.deferUntracked }
  else none

/-- LANE_UNBLOCKED after a removal: the lane was blocked and its reasons have gone (R125, R127). -/
def State.unblocked? (s : State) (l : PocketLane) (lane : Nat) (id : StackId) : List Notice :=
  if (l.overflow || l.closing) && !(l.closing && l.openStack.isNone) then
    [⟨.laneUnblocked, none, some id, some lane, some s.pos.web, []⟩]
  else []

/-- POCKET_CLEARED: the stack's count and its flags, CLEARED (bit 3) among them (R129, R172). -/
def Stack.clearedNoticeAt (k : Stack) (lane : Nat) : Notice :=
  ⟨.pocketCleared, none, some k.id, some lane, none,
    [BitVec.ofNat 16 k.count, BitVec.ofNat 16 (k.flagsByte ||| 8).toNat]⟩

/-- The lane entries outside the lane are the same. -/
abbrev OtherLanesKept (s t : State) (lane : Nat) : Prop :=
  t.pock.lanes.length = s.pock.lanes.length ∧
    ∀ i : Fin s.pock.lanes.length, i.val ≠ lane → t.lane? i = s.lane? i

end Sys2Proof.Machine
end

