-- ==== Sys2Proof/Certificates/Slice0/Obligations.lean ====
section
/-! DEFINITION. The statements for the provers, chapter by chapter. A statement about a command concludes that it answers
a next state, and an equation `t = { s with ... }` is its frame: nothing else differs. -/

open Sys2Proof Sys2Proof.Machine


/-- A step carries out the command at the front of the queue on the state with the rest of the queue (log 1). -/
def Obligations.StepRunsFrontCommand : Prop :=
  ∀ (i : Instr) (s : State), step { s with pending := i :: s.pending } = exec i s

/-- Every command is answered by a next state, and none reads or changes the queue. A port that the command does not name
keeps its slots, its exchange and its threshold: notices may join its queue, and NOTICE_LOST or SPURIOUS_MARK may be set;
only the power-on reset is excepted. The part buffer is kept by every command that does not name the Line Port (R160, R164
to R166, R170). -/
def Obligations.EveryCommandAnswersNext : Prop :=
  ∀ (i : Instr) (s : State) (queue : List Instr), ∃ t, exec i s = .next t ∧ t.pending = s.pending ∧
    exec i { s with pending := queue } = .next { t with pending := queue } ∧
    ((∀ straps a b, i ≠ .resetNReleased straps a b) → ∀ p, i.port? ≠ some p →
      (s.port p).MayBecome (t.port p) ∧ (p = .line → t.partBuffer = s.partBuffer))

/-- RESET_N low: the gate pins follow STRAP_SAFE, the separator, trigger and attention lines are low (R98, R168), and no
command but the two of RESET_N then changes anything (log 4). Its release gives every block its power-on values (R13, R21,
R35, R56, R77, R116, R135, R148, R159, R170). That it also leaves no exchange open on any port is the model's choice (log 16). -/
def Obligations.ResetPinDrivesOutputsAndState : Prop :=
  ((∀ (safe : Bool) (s : State), ∃ t, exec (.resetNAsserted safe) s = .next t ∧
    t = { s with inReset := true, strapSafePin := safe } ∧
    (∀ lane, t.gatePin lane = safe ∧ t.sepPin lane = false) ∧ t.itrigPin = false ∧ ∀ p, t.attention p = false) ∧
  ∀ (i : Instr) (s : State), s.inReset = true →
    (∀ b, i ≠ .resetNAsserted b) → (∀ straps a b, i ≠ .resetNReleased straps a b) → exec i s = .next s) ∧
  (∀ (straps : Straps) (a b : Bool) (s : State), ∃ t, exec (.resetNReleased straps a b) s = .next t ∧
    t.inReset = false ∧ t.straps = straps ∧ t.pos = ⟨a, b, 0, 0, [], [], none, false⟩ ∧
    t.trk = ⟨.idle, none, 0, 0, 0, 0, 0, 0, 0, none⟩ ∧ t.jobs = ⟨[none, none, none, none], none, none, none⟩ ∧
    t.tab = ⟨[], 1⟩ ∧ t.tau = ⟨[], .line, 0⟩ ∧
    t.kg = ⟨List.replicate 6 ⟨.functional, false, false⟩, List.replicate 6 ⟨.functional, false, false⟩, false, false,
      0, none⟩ ∧
    t.limit = (if straps.lanes.toNat = 0 ∨ straps.lanes.toNat = 7 then 6 else straps.lanes.toNat) ∧
    t.pock = ⟨List.replicate t.limit ⟨none, none, 0, false, false, false, false, 0, 0, 0, 0⟩, 1⟩ ∧
    t.offerSetting = 64 ∧ t.rng = ⟨[], 0⟩ ∧ t.partBuffer = none ∧
    (∀ p, t.port p = ⟨none, none, none, [], ⟨false, false, false, false, false⟩, .warn⟩) ∧ t.pending = s.pending ∧
    (∀ lane, t.gatePin lane = straps.safe ∧ t.sepPin lane = false) ∧ t.itrigPin = false ∧
    ∀ p, t.attention p = false)

/-- A legal edge changes one encoder phase and moves P by one count, modulo 2^32, up along the strap's sequence and down
against it, in every tracking state (R15, R16). -/
def Obligations.LegalEdgeMovesWebOneCount : Prop :=
  ∀ (ph : EncoderPhase) (s : State), s.inReset = false → ∃ t, exec (.encoderEdge ph) s = .next t ∧
    (t.pos.encA, t.pos.encB) = toggled ph (s.pos.encA, s.pos.encB) ∧
    (((s.pos.encA, s.pos.encB), (t.pos.encA, t.pos.encB)) ∈ (upSequence s.straps.dir).zip (upSequence s.straps.dir).tail →
      t.pos.web = s.pos.web + 1) ∧
    (((t.pos.encA, t.pos.encB), (s.pos.encA, s.pos.encB)) ∈ (upSequence s.straps.dir).zip (upSequence s.straps.dir).tail →
      t.pos.web = s.pos.web - 1)

/-- R17: the frontier follows P after a legal edge, and nothing else moves it; it is 0 at power-on, kept by
RESET_TRACKING and RESTART, and reported on page 1 of READ_STATUS. -/
def Obligations.FrontierFollowsWeb : Prop :=
  (∀ (ph : EncoderPhase) (s : State), s.inReset = false → ∃ t, exec (.encoderEdge ph) s = .next t ∧
    (0 < wdiff t.pos.web s.pos.frontier → t.pos.frontier = t.pos.web) ∧
    (wdiff t.pos.web s.pos.frontier ≤ 0 → t.pos.frontier = s.pos.frontier)) ∧
  (∀ (straps : Straps) (a b : Bool) (s : State), ∃ t, exec (.resetNReleased straps a b) s = .next t ∧
    t.pos.frontier = 0) ∧
  (∀ (i : Instr) (s : State), (∀ ph, i ≠ .encoderEdge ph) → (∀ straps a b, i ≠ .resetNReleased straps a b) →
    ∃ t, exec i s = .next t ∧ t.pos.frontier = s.pos.frontier) ∧
  ∀ (p : Port) (tag : Byte) (s : State), s.Granted p tag (.readStatus 1) →
    ∃ t, exec (.readStatus p tag 1) s = .next t ∧ ∃ r ∈ (t.port p).reply,
      r.code = .done ∧ (r.result.drop 4).take 4 = bytes32 s.pos.frontier

/-- The deadlines that an edge's frontier reaches fire in the order in which it reaches their positions; those that had
fired before are handed on first. Where the edge's reversal check hands a reversal to the tracker, the flywheel deadline
goes with the departure from HUNT or TRACK and the forcing is handed on. With no slot armed nothing else happens (R18, R20,
R46, R47). The oldest fired deadline is handed to the owner of its kind by the kind's command; a command whose deadline has
not fired changes nothing (R24, R111). The moment of handing on, and the order at one position, are the model's choice
(log 2, log 10). -/
def Obligations.EdgeFiresAndHandsOnDeadlines : Prop :=
  (∀ (ph : EncoderPhase) (s : State), s.inReset = false →
    ∃ t, exec (.encoderEdge ph) s = .next t ∧
      let reversed := s.pos.revArmed && s.trk.armed.any fun n =>
        decide (((s.job n).tolerance : Int) < wdiff t.pos.frontier t.pos.web)
      let hunts := reversed && decide (s.trk.state = .hunt ∨ s.trk.state = .track)
      let kept := fun d : Deadline => !(hunts && decide (d.kind = .flywheel))
      let crossed := fun d : Deadline => decide (t.pos.frontier ≠ s.pos.frontier ∧ 0 ≤ wdiff t.pos.frontier d.position)
      t.pos.deadlines = (s.pos.deadlines.filter fun d => !crossed d && kept d) ∧
      ReachedInOrder s.pos.frontier (s.pos.deadlines.filter fun d => crossed d && kept d) t.pos.fired ∧
      t.tau.events = s.tau.events ++ s.pos.fired.filterMap Deadline.event? ++
        (if reversed = true ∧ (s.trk.state = .hunt ∨ s.trk.state = .track ∨ s.trk.state = .drain) then [.forcing]
          else []) ∧
      t.kg.itrig = (s.kg.itrig && !s.pos.fired.any fun d => decide (d.kind = .triggerOff)) ∧
      (hunts = true → t.pos.flywheelCrossing = none) ∧
      (hunts = false →
        (∀ d ∈ (s.pos.fired.filter fun d => decide (d.kind = .flywheel)).getLast?,
          t.pos.flywheelCrossing = some d.position) ∧
        ((∀ d ∈ s.pos.fired, d.kind ≠ .flywheel) → t.pos.flywheelCrossing = s.pos.flywheelCrossing)) ∧
      (s.trk.armed = none → t = { s with
        pos := { t.pos with revArmed := s.pos.revArmed }
        tau := { s.tau with events := t.tau.events }
        kg := { s.kg with itrig := t.kg.itrig } })) ∧
  (∀ (s : State) (x : Word) (rest : List Deadline), s.inReset = false →
    (s.pos.fired = ⟨x, .flywheel⟩ :: rest → exec .flywheelDeadline s = .next { s with
      pos := { s.pos with fired := rest, flywheelCrossing := some x }
      tau := { s.tau with events := s.tau.events ++ [.flywheel x] } }) ∧
    (∀ n, s.pos.fired = ⟨x, .trigger n⟩ :: rest → exec (.triggerDeadline n) s = .next { s with
      pos := { s.pos with fired := rest }
      tau := { s.tau with events := s.tau.events ++ [.trigger n] } }) ∧
    (∀ n, s.pos.fired = ⟨x, .commit n⟩ :: rest → exec (.commitDeadline n) s = .next { s with
      pos := { s.pos with fired := rest }
      tau := { s.tau with events := s.tau.events ++ [.commit n] } }) ∧
    (∀ n, s.pos.fired = ⟨x, .missedCut n⟩ :: rest → exec (.missedCutDeadline n) s = .next { s with
      pos := { s.pos with fired := rest }
      tau := { s.tau with events := s.tau.events ++ [.missedCut n x] } }) ∧
    (s.pos.fired = ⟨x, .triggerOff⟩ :: rest → exec .triggerOffDeadline s = .next { s with
      pos := { s.pos with fired := rest }
      kg := { s.kg with itrig := false } }) ∧
    ((∀ d ∈ s.pos.fired, d.kind ≠ .flywheel) → exec .flywheelDeadline s = .next s) ∧
    ((∀ d ∈ s.pos.fired, d.kind ≠ .triggerOff) → exec .triggerOffDeadline s = .next s) ∧
    ∀ n, ((∀ d ∈ s.pos.fired, d.kind ≠ .trigger n) → exec (.triggerDeadline n) s = .next s) ∧
      ((∀ d ∈ s.pos.fired, d.kind ≠ .commit n) → exec (.commitDeadline n) s = .next s) ∧
      ((∀ d ∈ s.pos.fired, d.kind ≠ .missedCut n) → exec (.missedCutDeadline n) s = .next s))

/-- While a slot is armed, the edge that takes F − P past its tolerance with the check armed hands one reversal to the
tracker, which treats it as its state says (R20, R46, R47). The edge has no fired deadline to hand on first. -/
def Obligations.ReversalReportedOncePastTolerance : Prop :=
  ∀ (ph : EncoderPhase) (s : State) (n : SlotNumber), s.inReset = false → s.trk.armed = some n → s.pos.fired = [] →
    ∃ t, exec (.encoderEdge ph) s = .next t ∧
      (wdiff t.pos.frontier t.pos.web ≤ (s.job n).tolerance → t = { s with pos := t.pos } ∧ t.pos.revArmed = true) ∧
      ((s.job n).tolerance < wdiff t.pos.frontier t.pos.web → t.pos.revArmed = false) ∧
      ((s.job n).tolerance < wdiff t.pos.frontier t.pos.web → s.pos.revArmed = false → t = { s with pos := t.pos }) ∧
      ((s.job n).tolerance < wdiff t.pos.frontier t.pos.web → s.pos.revArmed = true →
        let notice : Notice :=
          ⟨.reversal, none, none, none, some t.pos.web, twoFigures (t.pos.frontier - t.pos.web)⟩
        let fault := some (offeredRecord s.trk.fault .reversal none t.pos.web)
        (s.trk.state = .hunt ∨ s.trk.state = .track →
          (∀ d ∈ t.pos.deadlines ++ t.pos.fired, d.kind ≠ .flywheel) ∧ t.pos.flywheelCrossing = none ∧
          t = { s with
            pos := t.pos
            trk := { s.trk with state := .hunt, fault := fault }
            tau := { s.tau with events := s.tau.events ++ [.forcing] }
            line := if s.trk.state = .track then (s.line.append notice).append (stateChangeNotice .hunt t.pos.web)
              else s.line.append notice
            insp := s.insp.append notice }) ∧
        (s.trk.state = .drain →
          t = { s with
            pos := t.pos
            trk := { s.trk with fault := fault }
            tau := { s.tau with events := s.tau.events ++ [.forcing] }
            line := s.line.append notice
            insp := s.insp.append notice }) ∧
        (s.trk.state = .fault →
          t = { s with
            pos := t.pos
            trk := { s.trk with fault := fault }
            line := s.line.append notice
            insp := s.insp.append notice }))

/-- An illegal transition leaves P as it is, takes the new joint state as the reference and is a fatal fault, in FAULT only
offered to the record (R15, R48). A creation that finds 512 records, the oldest neither CUT nor MISSED, leaves the table,
the arithmetic and the switches as they are and enters FAULT with TABLE_FULL (R49, R61, R64). -/
def Obligations.FatalFaultsEnterFault : Prop :=
  (∀ s : State, s.inReset = false → ∃ t, exec .encoderFault s = .next t ∧
    t.pos.encA = !s.pos.encA ∧ t.pos.encB = !s.pos.encB ∧
    (s.trk.state ≠ .fault →
      FaultEntered { s with pos := { s.pos with encA := !s.pos.encA, encB := !s.pos.encB } } t .encoderFault none
        s.pos.web) ∧
    (s.trk.state = .fault →
      t = { s with
        pos := { s.pos with encA := !s.pos.encA, encB := !s.pos.encB }
        trk := { s.trk with fault := some (offeredRecord s.trk.fault .encoderFault none s.pos.web) } })) ∧
  (∀ (s : State) (e : TrackingEvent) (rest : List TrackingEvent) (n : SlotNumber),
    s.EventFirst e rest → s.trk.armed = some n → ¬s.HasRoom →
    ((∃ x, e = .mark x true ∧ (s.trk.state = .hunt ∨ s.trk.state = .track ∧
        (s.trk.rm : Int) - (s.trk.rm >>> (s.job n).j : Nat) ≤ wdiff x s.trk.pmLast)) ∨
      ∃ x, e = .flywheel x ∧ s.trk.state = .track ∧ s.pos.flywheelCrossing = some x) →
    ∃ t, exec .rowCreation s = .next t ∧
      FaultEntered { s with tau := { s.tau with events := rest } } t .tableFull (some s.tab.nextRow) s.pos.web)

/-- R53: an offer fills an empty record, replaces a less severe kind with MORE set, and otherwise only sets MORE. Every step
but FAULT_CLEAR, by its command or by a frame of its kind, and the power-on reset keeps the most severe kind offered, with
the row and position of its first offer; it is empty at power-on, and RESET_TRACKING and PORT_CLEAR leave it as it is. -/
def Obligations.FaultRecordKeepsMostSevere : Prop :=
  (∀ (k : FaultKind) (row : Option Word) (x : Word), offeredRecord none k row x = ⟨k, row, x, false⟩ ∧
    ∀ r : FaultRecord,
      ([FaultKind.driftLimit, .registerLost, .reversal, .missedCut, .tableFull, .encoderFault].idxOf r.kind <
          [FaultKind.driftLimit, .registerLost, .reversal, .missedCut, .tableFull, .encoderFault].idxOf k →
        offeredRecord (some r) k row x = ⟨k, row, x, true⟩) ∧
      ([FaultKind.driftLimit, .registerLost, .reversal, .missedCut, .tableFull, .encoderFault].idxOf k ≤
          [FaultKind.driftLimit, .registerLost, .reversal, .missedCut, .tableFull, .encoderFault].idxOf r.kind →
        offeredRecord (some r) k row x = { r with more := true })) ∧
  (∀ s t : State, step s = .next t → (∀ straps a b, s.pending.head? ≠ some (.resetNReleased straps a b)) →
    (∀ p tag, s.pending.head? ≠ some (.faultClear p tag)) →
    (∀ p bits, s.pending.head? = some (.selectRise p bits) → frameByte (clockedBytes bits) 0 ≠ 19) →
    ∀ r ∈ s.trk.fault, ∃ q ∈ t.trk.fault, r.mayBecome q = true) ∧
  ∀ s : State,
    (∀ straps a b, ∃ t, exec (.resetNReleased straps a b) s = .next t ∧ t.trk.fault = none) ∧
    (∀ p tag, ∃ t, exec (.resetTracking p tag) s = .next t ∧ t.trk.fault = s.trk.fault) ∧
    ∀ p tag, ∃ t, exec (.portClear p tag) s = .next t ∧ t.trk.fault = s.trk.fault

/-- R19: an edge of MARK or KNIFE whose capture lies behind the frontier changes nothing; otherwise the capture is
handed on as a tracking event, in every tracking state. -/
def Obligations.CapturesBehindFrontierIgnored : Prop :=
  ∀ s : State, s.inReset = false →
    (wdiff s.pos.web s.pos.frontier < 0 → exec .markEdge s = .next s ∧ exec .knifeEdge s = .next s) ∧
    (0 ≤ wdiff s.pos.web s.pos.frontier →
      exec .markEdge s = .next { s with tau := { s.tau with events := s.tau.events ++ [.mark s.pos.web true] } } ∧
      exec .knifeEdge s = .next { s with tau := { s.tau with events := s.tau.events ++ [.knife s.pos.web] } })

/-- The first mark served in HUNT resynchronises the tracker and creates a RESYNC row (R26, R27, R40, R61, R62). -/
def Obligations.MarkInHuntResynchronises : Prop :=
  ∀ (s : State) (x : Word) (rest : List TrackingEvent) (n : SlotNumber),
    s.EventFirst (.mark x true) rest → s.trk.state = .hunt → s.trk.armed = some n → s.HasRoom →
    let m := s.creationSlot n
    let o := ((s.job m).lk * s.trk.rm + 128) / 256
    let oi := ((s.job m).li * s.trk.rm + 128) / 256
    ∃ t, exec .rowCreation s = .next t ∧ ∃ q ∈ t.tab.rows.getLast?,
      q.BornAs s m .resync x (BitVec.ofNat 32 o) (BitVec.ofNat 32 oi) s.trk.rm ∧
      DeadlinesEntered s t (fun k => s.retiredEarly k || decide (k = .flywheel))
        (q.deadlines (s.job m).wc ++ [flywheelAt x s.trk.rm (s.job m).j]) ∧
      t = { s with
        pos := { s.pos with deadlines := t.pos.deadlines, fired := t.pos.fired, flywheelCrossing := none }
        trk := { s.trk with
          state := .track, armed := some m, oSync := o, offset := o, oi := oi, miss := 0, pmLast := x }
        jobs := s.creationJobs n
        tab := ⟨s.keptRows ++ [q], s.tab.nextRow + 1⟩
        tau := { s.tau with events := rest }
        line := (s.line.append ⟨.resync, some q.number, none, none, some x, twoFigures q.arrival⟩).append
          (stateChangeNotice .track s.pos.web)
        insp := s.insp.append ⟨.resync, some q.number, none, none, some x, twoFigures q.arrival⟩ }

/-- A mark served in TRACK at or past the near edge of the window creates a SENSED row, after the repeat filter where the
newest row is SENSED; a clamp of the filter raises DRIFT_LIMIT (R22, R23, R28, R34, R61, R62). A mark before the near edge
sets SPURIOUS_MARK and nothing else; one served in IDLE, DRAIN or FAULT, or passed by a RESTART or RESET_TRACKING, does
nothing at all (R23, R45, R61). -/
def Obligations.MarkInTrackJudgedByWindow : Prop :=
  (∀ (s : State) (x : Word) (rest : List TrackingEvent) (n : SlotNumber),
    s.EventFirst (.mark x true) rest → s.trk.state = .track → s.trk.armed = some n → s.HasRoom →
    (s.trk.rm : Int) - (s.trk.rm >>> (s.job n).j : Nat) ≤ wdiff x s.trk.pmLast →
    let m := s.creationSlot n
    let rn := (s.job m).rn
    ∃ t, exec .rowCreation s = .next t ∧ ∃ q ∈ t.tab.rows.getLast?,
      q.BornAs s m .sensed x (BitVec.ofInt 32 s.trk.offset) (BitVec.ofNat 32 s.trk.oi) t.trk.rm ∧
      DeadlinesEntered s t (fun k => s.retiredEarly k || decide (k = .flywheel))
        (q.deadlines (s.job m).wc ++ [flywheelAt x t.trk.rm (s.job m).j]) ∧
      t = { s with
        pos := { s.pos with deadlines := t.pos.deadlines, fired := t.pos.fired, flywheelCrossing := none }
        trk := { s.trk with armed := some m, rm := t.trk.rm, miss := 0, pmLast := x, fault := t.trk.fault }
        jobs := s.creationJobs n
        tab := ⟨s.keptRows ++ [q], s.tab.nextRow + 1⟩
        tau := { s.tau with events := rest }
        line := t.line } ∧
      ((∀ p ∈ s.keptRows.getLast?, p.origin ≠ .sensed) →
        t.trk.rm = s.trk.rm ∧ t.trk.fault = s.trk.fault ∧ t.line = s.line) ∧
      ∀ p ∈ s.keptRows.getLast?, p.origin = .sensed →
        let d := wdiff x p.pm - s.trk.rm
        let r := s.trk.rm + (if (s.job m).k = 0 then d
          else d.sign * ((d.natAbs + 2 ^ ((s.job m).k - 1)) / 2 ^ (s.job m).k : Nat))
        ((rn - rn / 4 : Nat) ≤ r ∧ r ≤ (rn + rn / 4 : Nat) →
          (t.trk.rm : Int) = r ∧ t.trk.fault = s.trk.fault ∧ t.line = s.line) ∧
        (r < (rn - rn / 4 : Nat) ∨ ((rn + rn / 4 : Nat) : Int) < r →
          t.trk.rm = (if r < (rn - rn / 4 : Nat) then rn - rn / 4 else rn + rn / 4) ∧
          t.trk.fault = some (offeredRecord s.trk.fault .driftLimit (some q.number) s.pos.web) ∧
          t.line = s.line.append
            ⟨.driftLimit, some q.number, none, none, some s.pos.web, twoFigures (BitVec.ofNat 32 t.trk.rm)⟩)) ∧
  (∀ (s : State) (x : Word) (live : Bool) (rest : List TrackingEvent), s.EventFirst (.mark x live) rest →
    (live = false ∨ s.trk.state = .idle ∨ s.trk.state = .drain ∨ s.trk.state = .fault →
      exec .rowCreation s = .next { s with tau := { s.tau with events := rest } }) ∧
    ∀ n, s.trk.armed = some n → live = true → s.trk.state = .track →
      wdiff x s.trk.pmLast < (s.trk.rm : Int) - (s.trk.rm >>> (s.job n).j : Nat) →
      exec .rowCreation s = .next { s with
        tau := { s.tau with events := rest }
        line := { s.line with flags := { s.line.flags with spuriousMark := true } } })

/-- A flywheel crossing served in TRACK creates a FLYWHEEL row at Pm_last + Rm and counts a miss; at the miss limit the
register is lost and the tracker hunts. A crossing that a later creation or a departure from TRACK has superseded makes
nothing (R24, R25, R41, R61, R62, R63). -/
def Obligations.FlywheelCrossingCreatesRow : Prop :=
  ∀ (s : State) (x : Word) (rest : List TrackingEvent), s.EventFirst (.flywheel x) rest →
    (s.trk.state ≠ .track ∨ s.pos.flywheelCrossing ≠ some x →
      exec .rowCreation s = .next { s with tau := { s.tau with events := rest } }) ∧
    ∀ n, s.trk.armed = some n → s.trk.state = .track → s.pos.flywheelCrossing = some x → s.HasRoom →
      let m := s.creationSlot n
      let pm := s.trk.pmLast + BitVec.ofNat 32 s.trk.rm
      let count := s.trk.miss + 1
      let lost := (s.job m).missLimit ≤ count
      ∃ t, exec .rowCreation s = .next t ∧ ∃ q ∈ t.tab.rows.getLast?,
        q.BornAs s m .flywheel pm (BitVec.ofInt 32 s.trk.offset) (BitVec.ofNat 32 s.trk.oi) s.trk.rm ∧
        DeadlinesEntered s t (fun k => s.retiredEarly k || decide (k = .flywheel))
          (q.deadlines (s.job m).wc ++ if lost then [] else [flywheelAt pm s.trk.rm (s.job m).j]) ∧
        t = { s with
          pos := { s.pos with deadlines := t.pos.deadlines, fired := t.pos.fired, flywheelCrossing := none }
          trk := { s.trk with
            armed := some m, miss := count, pmLast := pm
            state := if lost then .hunt else .track
            fault := if lost then some (offeredRecord s.trk.fault .registerLost (some q.number) s.pos.web)
              else s.trk.fault }
          jobs := s.creationJobs n
          tab := ⟨s.keptRows ++ [q], s.tab.nextRow + 1⟩
          tau := { s.tau with events := rest }
          line := s.line.appendAll
            (⟨.flywheelRow, some q.number, none, none, some pm, [BitVec.ofNat 16 count]⟩ ::
              if lost then
                [⟨.registerLost, some q.number, none, none, some s.pos.web, [BitVec.ofNat 16 count]⟩,
                  stateChangeNotice .hunt s.pos.web]
              else [])
          insp := s.insp.appendAll (if lost then
            [⟨.registerLost, some q.number, none, none, some s.pos.web, [BitVec.ofNat 16 count]⟩] else []) }

/-- A trigger event marks its row TRIGGERED, asserts ITRIG, records the row and enters the trigger-off deadline at the
row's trigger position + (Rm>>3), whatever the tracking state; for a removed row it does nothing (R110; the 100 ns
interval is left out, log 19). -/
def Obligations.TriggerEventStartsPulse : Prop :=
  ∀ (s : State) (n : Word) (rest : List TrackingEvent), s.EventFirst (.trigger n) rest →
    (s.row? n = none → exec .triggerEvent s = .next { s with tau := { s.tau with events := rest } }) ∧
    ∀ r ∈ s.row? n, ∃ t, exec .triggerEvent s = .next t ∧
      DeadlinesEntered s t (fun k => decide (k = .triggerOff))
        [⟨r.trigger + BitVec.ofNat 32 (s.trk.rm / 8), .triggerOff⟩] ∧
      t = { s with
        pos := { s.pos with deadlines := t.pos.deadlines, fired := t.pos.fired }
        tab := { s.tab with rows := s.tab.rows.map fun x => if x.number = n then { x with triggered := true } else x }
        tau := { s.tau with events := rest }
        kg := { s.kg with itrig := true, lastTriggered := some (n, r.trigger) } }

/-- R85: at a commit each active lane takes the disposition of the first line that applies to it, under the policies of
the row's own slot; a VOID lane takes none. -/
def Obligations.CommitFollowsDispositionList : Prop :=
  ∀ (s : State) (n : Word) (rest : List TrackingEvent) (r : Row), s.EventFirst (.commit n) rest →
    s.row? n = some r → r.state = .travelling → s.trk.state ≠ .fault →
    ∃ t, exec .commit s = .next t ∧ ∃ q ∈ t.row? n, q.lanes.length = r.lanes.length ∧
      ∀ i : Fin r.lanes.length, ∀ d ∈ q.lanes[i.val]?,
        d = { r.lanes[i] with disposition := d.disposition, reason := d.reason } ∧
        (r.lanes[i].grade = .void → d = r.lanes[i]) ∧
        (r.lanes[i].grade ≠ .void →
          if (s.kg.gates[i.val]?).map (·.mode) = some .manual then d.disposition = some .manual ∧ d.reason = none
          else if s.kg.cutDebt = true then d.disposition = some .divert ∧ d.reason = some .double
          else if r.lanes[i].grade = .reject ∨ r.lanes[i].grade = .forced then
            d.disposition = some .divert ∧ d.reason = some .grade
          else if r.lanes[i].grade = .pending ∧ (s.job r.slot).ungraded = .divert then
            d.disposition = some .divert ∧ d.reason = some .ungraded
          else if r.lanes[i].grade = .minor ∧ (s.job r.slot).minor = .divert then
            d.disposition = some .divert ∧ d.reason = some .minorPolicy
          else (d.disposition = some .stack ∧ d.reason = none) ∨
            (d.disposition = some .divert ∧ d.reason = some .blocked))

/-- A stack candidate is refused while the lane is blocked, or when a stack is held and this label would fill the open
one, which sets OVERFLOW and raises LANE_BLOCKED on the Line and Delivery Ports; otherwise the pending count rises (R87, R124,
R125, R128). No carried switch acts at this commit. That OVERFLOW is set as well in a lane that is already CLOSING is the
model's reading of R87 (log 27). -/
def Obligations.CommitJudgesStackCandidates : Prop :=
  ∀ (s : State) (n : Word) (rest : List TrackingEvent) (r : Row), s.EventFirst (.commit n) rest →
    s.row? n = some r → r.state = .travelling → s.trk.state ≠ .fault → (∀ c ∈ s.jobs.carried, r.slot ≠ c.new) →
    ∃ t, exec .commit s = .next t ∧ t.pock.lanes.length = s.pock.lanes.length ∧ t.pock.nextId = s.pock.nextId ∧
      (∀ i : Fin s.pock.lanes.length, r.lanes.length ≤ i.val → t.lane? i = s.lane? i) ∧
      ∀ i : Fin r.lanes.length, ∀ l ∈ s.lane? i, ∀ q ∈ t.row? n, ∀ d ∈ q.lanes[i.val]?,
        if r.lanes[i].spared = true ∧ (s.kg.gates[i.val]?).map (·.mode) ≠ some .manual ∧ s.kg.cutDebt = false ∧
            ¬(r.lanes[i].grade = .pending ∧ (s.job r.slot).ungraded = .divert) ∧
            ¬(r.lanes[i].grade = .minor ∧ (s.job r.slot).minor = .divert) then
          (l.overflow = true ∨ l.closing = true →
            d.disposition = some .divert ∧ d.reason = some .blocked ∧
            t.lane? i = some { l with overflow := l.overflow ||
              (l.heldStack.isSome && l.openStack.any fun k => decide (k.target ≤ k.count + l.pendingCount + 1)) }) ∧
          (l.overflow = false → l.closing = false → ∀ k ∈ l.openStack,
            (l.heldStack.isSome = true → k.target ≤ k.count + l.pendingCount + 1 →
              d.disposition = some .divert ∧ d.reason = some .blocked ∧
              t.lane? i = some { l with overflow := true } ∧
              let notice : Notice := ⟨.laneBlocked, some n, none, some i.val, some s.pos.web, [1]⟩
              (s.line.notices.length + r.lanes.length ≤ 16 → notice ∈ t.line.notices) ∧
              (s.deliv.notices.length + r.lanes.length ≤ 16 → notice ∈ t.deliv.notices)) ∧
            (l.heldStack = none ∨ k.count + l.pendingCount + 1 < k.target →
              d.disposition = some .stack ∧ t.lane? i = some { l with pendingCount := l.pendingCount + 1 }))
        else t.lane? i = some l

/-- A commit leaves its row COMMITTED, DOUBLE under a standing debt, clears the debt and drives the FUNCTIONAL gates of
the lanes below the limit to POCKET for STACK and to DIVERT otherwise; for a removed row and in FAULT it is discarded
(R84, R86, R88, R99, R107). -/
def Obligations.CommitSetsGatesAndClearsDebt : Prop :=
  ∀ (s : State) (n : Word) (rest : List TrackingEvent), s.EventFirst (.commit n) rest →
    (s.row? n = none ∨ s.trk.state = .fault →
      exec .commit s = .next { s with tau := { s.tau with events := rest } }) ∧
    ∀ r ∈ s.row? n, r.state = .travelling → s.trk.state ≠ .fault →
      ∃ t, exec .commit s = .next t ∧ ∃ q ∈ t.row? n,
        q = { r with state := .committed, double := r.double || s.kg.cutDebt, lanes := q.lanes } ∧
        t.kg.gates = (s.kg.gates.mapIdx fun i l =>
          if l.mode = .functional ∧ i < s.limit then
            { l with on := decide ((q.lanes[i]?).bind (·.disposition) = some .stack) }
          else l) ∧
        t.tab.rows.map (·.number) = s.tab.rows.map (·.number) ∧
        (∀ x ∈ t.tab.rows, x.number ≠ n → x ∈ s.tab.rows) ∧
        (s.jobs.carried = none → t.jobs = s.jobs ∧ t.kg.seps = s.kg.seps ∧ t.insp = s.insp) ∧
        t = { s with
          jobs := t.jobs
          tab := { s.tab with rows := t.tab.rows }
          tau := { s.tau with events := rest }
          kg := { s.kg with gates := t.kg.gates, seps := t.kg.seps, cutDebt := false }
          pock := t.pock
          line := t.line
          insp := t.insp
          deliv := t.deliv }

/-- A carried switch takes effect at the commit of the first row under its new slot: each changed lane's open stack that
counts closes SHORT, or its closure is deferred while a stack is held; empty stacks are re-planned; the plan in force
changes and JOB_SWITCHED goes to every port (R11). -/
def Obligations.CarriedSwitchActsAtCommit : Prop :=
  ∀ (s : State) (n : Word) (rest : List TrackingEvent) (r : Row) (c : CarriedSwitch), s.EventFirst (.commit n) rest →
    s.row? n = some r → r.state = .travelling → s.trk.state ≠ .fault → s.jobs.carried = some c →
    let notice : Notice := ⟨.jobSwitched, some n, none, none, some r.commit, [BitVec.ofNat 16 c.new.val]⟩
    ∃ t, exec .commit s = .next t ∧
      (r.slot ≠ c.new → t.jobs = s.jobs ∧ t.insp = s.insp) ∧
      (r.slot = c.new →
        t.jobs = { s.jobs with plan := some c.new, carried := none } ∧
        t.insp = s.insp.append notice ∧ (s.line.notices.length ≤ 9 → notice ∈ t.line.notices) ∧
        (s.deliv.notices.length ≤ 9 → notice ∈ t.deliv.notices) ∧
        ∀ i : Fin s.pock.lanes.length, i.val < s.limit → ∀ m ∈ t.lane? i,
          let l := s.pock.lanes[i]
          let old := s.job c.previous
          let new := s.job c.new
          let changed := old.lanes.getLsbD i != new.lanes.getLsbD i ||
            (old.lanes.getLsbD i && decide (old.target ≠ new.target))
          (l.openStack = none → t.OpensNew i c.new new.target ∧ m.heldStack = l.heldStack) ∧
          ∀ k ∈ l.openStack,
            (k.count = 0 → m.openStack = some { k with slot := c.new, target := new.target } ∧
              m.heldStack = l.heldStack) ∧
            (k.count ≠ 0 → changed = false → m.openStack = some k ∧ m.heldStack = l.heldStack) ∧
            (k.count ≠ 0 → changed = true → l.heldStack.isSome = true →
              m.openStack = some k ∧ m.heldStack = l.heldStack ∧ m.closing = true ∧ m.deferShort = true ∧
              m.deferUntracked = l.deferUntracked) ∧
            (k.count ≠ 0 → changed = true → l.heldStack = none →
              m.heldStack = some ({ k with short := true }.handedOver s.offerSetting) ∧
              t.OpensNew i c.new new.target ∧ t.kg.seps[i.val]? = (s.kg.seps[i.val]?).map (·.pulsed)))

/-- A missed-cut event declares its COMMITTED row missed: every active lane is diverted, the late marks are dropped, the
gates return to DIVERT, the debt is set and MISSED_CUT is noticed and offered; in DRAIN, with no row left to drain, the
tracker enters IDLE, which clears the debt. For a row removed or not COMMITTED it does nothing (R43, R65, R66, R106). -/
def Obligations.MissedCutDivertsRow : Prop :=
  ∀ (s : State) (n x : Word) (rest : List TrackingEvent), s.EventFirst (.missedCut n x) rest →
    ((∀ r ∈ s.row? n, r.state ≠ .committed) →
      exec .missedCutEvent s = .next { s with tau := { s.tau with events := rest } }) ∧
    ∀ r ∈ s.row? n, r.state = .committed →
      let rows := s.tab.rows.map fun y =>
        if y.number = n then { y with lanes := y.lanes.map fun c => { c with late := false }, state := .missed } else y
      let fault := some (offeredRecord s.trk.fault .missedCut (some n) x)
      ∃ t, exec .missedCutEvent s = .next t ∧
        (s.trk.state ≠ .drain ∨ leftToDrain (retained rows) = true →
          DeadlinesEntered s t (retiredAfter rows) [] ∧
          t = { s with
            pos := { s.pos with deadlines := t.pos.deadlines, fired := t.pos.fired }
            trk := { s.trk with fault := fault }
            tab := { s.tab with rows := retained rows }
            tau := { s.tau with events := rest }
            kg := { s.kg with gates := s.kg.gates.map (·.rested), cutDebt := true }
            pock := { s.pock with lanes := s.pock.lanes.mapIdx fun i l =>
              match r.lanes[i]? with
              | none => l
              | some c =>
                if c.grade = .void then l
                else { l with
                  diverted := l.diverted + 1
                  pendingCount := if c.disposition = some .stack then l.pendingCount - 1 else l.pendingCount } }
            line := s.line.append ⟨.missedCut, some n, none, none, some x, []⟩ }) ∧
        (s.trk.state = .drain → leftToDrain (retained rows) = false →
          t.trk = { s.trk with state := .idle, armed := none, fault := fault } ∧ t.tab.rows = retained rows ∧
          t.kg.gates = s.kg.gates.map (·.rested) ∧ t.kg.cutDebt = false ∧ t.rng.queue = [])

/-- The cut of a COMMITTED row: a matched one adapts O by a quarter of the cut error within O_sync ± (Rn>>4), raising
DRIFT_LIMIT at the clamp, and Ef by an eighth; a misregistered one leaves both and is noticed. The rest of the tracker
changes only if DRAIN ends (R30, R31, R33, R34, R104). -/
def Obligations.CutAdaptsKnifeOffset : Prop :=
  ∀ (s : State) (x : Word) (rest : List TrackingEvent) (r : Row) (a : SlotNumber), s.EventFirst (.knife x) rest →
    s.committedRow? = some r → s.trk.state ≠ .fault → s.trk.armed = some a →
    let e := wdiff x r.arrival
    let wc : Int := (s.job r.slot).wc
    let bound : Int := ((s.job a).rn / 16 : Nat)
    let o := s.trk.offset + e.sign * (e.natAbs / 4 : Nat)
    let f := s.trk.ef + (e - s.trk.ef).sign * (((e - s.trk.ef).natAbs + 4) / 8 : Nat)
    ∃ t, exec .knifeEvent s = .next t ∧
      t.trk = { s.trk with
        offset := t.trk.offset, ef := t.trk.ef, fault := t.trk.fault, state := t.trk.state, armed := t.trk.armed } ∧
      (-wc ≤ e → e ≤ wc →
        t.trk.ef = (if 32767 < f then 32767 else if f < -32767 then -32767 else f) ∧
        (s.trk.oSync - bound ≤ o → o ≤ s.trk.oSync + bound → t.trk.offset = o ∧ t.trk.fault = s.trk.fault) ∧
        (o < s.trk.oSync - bound ∨ s.trk.oSync + bound < o →
          t.trk.offset = (if o < s.trk.oSync - bound then s.trk.oSync - bound else s.trk.oSync + bound) ∧
          t.trk.fault = some (offeredRecord s.trk.fault .driftLimit (some r.number) s.pos.web) ∧
          (s.line.notices.length < 16 →
            ⟨.driftLimit, some r.number, none, none, some s.pos.web, twoFigures (BitVec.ofInt 32 t.trk.offset)⟩ ∈
              t.line.notices))) ∧
      (e < -wc → t.trk.offset = s.trk.offset ∧ t.trk.ef = s.trk.ef ∧ t.trk.fault = s.trk.fault ∧
        (s.line.notices.length ≤ 9 →
          ⟨.misregisteredCut, some r.number, none, none, some x, twoFigures (BitVec.ofInt 32 e)⟩ ∈ t.line.notices))

/-- The cut leaves its row CUT with the cut error, MISREGISTERED where the error lies before the window, and each STACK
lane with the id of the stack it landed in; the row's missed-cut deadline goes, the oldest row is retired past sixteen,
the FUNCTIONAL gates return to DIVERT, and DRAIN ends when no row is left to drain (R43, R59, R66, R102, R121). A cut error
above the window, which does not arise, makes the row MISREGISTERED as well: that is the model's choice (log 12). -/
def Obligations.CutRecordsRow : Prop :=
  ∀ (s : State) (x : Word) (rest : List TrackingEvent) (r : Row), s.EventFirst (.knife x) rest →
    s.committedRow? = some r → s.trk.state ≠ .fault → s.RowsNumbered →
    let e := wdiff x r.arrival
    let wc : Int := (s.job r.slot).wc
    ∃ t, exec .knifeEvent s = .next t ∧ t.tau = { s.tau with events := rest, streak := t.tau.streak } ∧
      t.tab.nextRow = s.tab.nextRow ∧
      t.tab.rows.map (·.number) =
        (if s.tab.rows.countP (fun y => decide (y.state = .cut ∨ y.state = .missed)) < 16
          then s.tab.rows else s.tab.rows.tail).map (·.number) ∧
      (∀ q ∈ t.tab.rows, q.number ≠ r.number → q ∈ s.tab.rows) ∧
      (∀ q ∈ t.tab.rows, q.number = r.number →
        q = { r with
          state := .cut, cutError := some e
          misregistered := r.misregistered || !(decide (-wc ≤ e) && decide (e ≤ wc))
          lanes := r.lanes.mapIdx fun i c =>
            match s.openStack? i with
            | some k => if c.grade ≠ .void ∧ c.disposition = some .stack then { c with stack := some k.id } else c
            | none => c }) ∧
      (∀ d ∈ t.pos.deadlines ++ t.pos.fired, d.kind ≠ .missedCut r.number) ∧
      t.kg.gates = s.kg.gates.map (·.rested) ∧
      (s.trk.state = .drain → leftToDrain t.tab.rows = false → t.trk.state = .idle ∧ t.trk.armed = none) ∧
      (s.trk.state ≠ .drain ∨ leftToDrain t.tab.rows = true →
        t.trk.state = s.trk.state ∧ t.trk.armed = s.trk.armed ∧
        DeadlinesEntered s t (fun k => decide (k = .missedCut r.number) ||
          decide (16 ≤ s.tab.rows.countP (fun y => decide (y.state = .cut ∨ y.state = .missed)) ∧
            ∃ y ∈ s.tab.rows.head?, k.row? = some y.number)) [] ∧
        t = { s with
          pos := { s.pos with deadlines := t.pos.deadlines, fired := t.pos.fired }
          trk := t.trk
          tab := t.tab
          tau := { s.tau with events := rest }
          kg := { s.kg with gates := t.kg.gates, seps := t.kg.seps }
          pock := t.pock
          line := t.line
          deliv := t.deliv })

/-- A cut counts each active lane of its row once: stacked, diverted or manual as its disposition says, and no other tally
changes (R103, R121, R133). A STACK label lands in its lane's open stack; the label that reaches the target completes it:
the stack is held and offered, its separator is asserted, and a new one opens. Every other FUNCTIONAL separator is
deasserted, and one cut is counted for every other held stack (R102, R104, R108, R109, R121 to R123, R137, R138). Where the
cut ends DRAIN, the closures of the entry to IDLE are asked for on the lanes so left (R43, R44). A label of a cut with an
error above the window, which does not arise, lands as a suspect (log 12), and in a lane without an open stack, which does
not arise either, a label is counted and lands nowhere (log 20): both are the model's choices. -/
def Obligations.CutLandsAndCountsLabels : Prop :=
  (∀ (s : State) (x : Word) (rest : List TrackingEvent) (r : Row), s.EventFirst (.knife x) rest →
    s.committedRow? = some r → s.trk.state ≠ .fault →
    ∃ t, exec .knifeEvent s = .next t ∧ t.pock.lanes.length = s.pock.lanes.length ∧
      ∀ i : Fin s.pock.lanes.length, ∀ m ∈ t.lane? i,
        let l := s.pock.lanes[i]
        let active := (r.lanes[i.val]?).filter fun c => decide (c.grade ≠ .void)
        let of := fun d => decide (active.bind (·.disposition) = some d)
        m.stacked = l.stacked + (if of .stack then 1 else 0) ∧
        m.diverted = l.diverted + (if of .divert then 1 else 0) ∧
        m.manual = l.manual + (if of .manual then 1 else 0) ∧
        m.lateRejects = l.lateRejects ∧
        m.pendingCount = (if of .stack then l.pendingCount - 1 else l.pendingCount) ∧
        (s.trk.state ≠ .drain → of .manual = true →
          m.openStack = l.openStack.map fun k => { k with interrupted := true })) ∧
  (∀ (s : State) (x : Word) (rest : List TrackingEvent) (r : Row), s.EventFirst (.knife x) rest →
    s.committedRow? = some r → s.trk.state ≠ .fault →
    let e := wdiff x r.arrival
    let wc : Int := (s.job r.slot).wc
    ∃ t u : State, exec .knifeEvent s = .next t ∧ u.pock.lanes.length = s.pock.lanes.length ∧ u.straps = s.straps ∧
      u.jobs = s.jobs ∧ u.offerSetting = s.offerSetting ∧ u.kg.seps.length = s.kg.seps.length ∧
      (s.trk.state ≠ .drain ∨ leftToDrain t.tab.rows = true → t.pock = u.pock ∧ t.kg.seps = u.kg.seps) ∧
      (s.trk.state = .drain → leftToDrain t.tab.rows = false → ClosuresAsked u t false) ∧
      ∀ i : Fin s.pock.lanes.length, ∀ m ∈ u.lane? i,
        let l := s.pock.lanes[i]
        let landed := (r.lanes[i.val]?).filter fun c => decide (c.grade ≠ .void ∧ c.disposition = some .stack)
        let manual := (r.lanes[i.val]?).any fun c => decide (c.grade ≠ .void ∧ c.disposition = some .manual)
        let held := if i.val < s.limit then l.heldStack.map (·.afterCut s.offerSetting) else l.heldStack
        (m.overflow = l.overflow ∧ m.closing = l.closing ∧ m.deferShort = l.deferShort ∧
          m.deferUntracked = l.deferUntracked) ∧
        (landed = none → m.openStack = l.openStack.map (fun k => { k with interrupted := k.interrupted || manual }) ∧
          m.heldStack = held ∧ u.kg.seps[i.val]? = (s.kg.seps[i.val]?).map (·.rested)) ∧
        ∀ c ∈ landed, ∀ k ∈ s.openStack? i,
          let k' := k.afterLanding r.number (decide (c.grade = .minor))
            (c.late || !(decide (-wc ≤ e) && decide (e ≤ wc)))
          (k.count + 1 ≠ k.target → m.openStack = some k' ∧ m.heldStack = held ∧
            u.kg.seps[i.val]? = (s.kg.seps[i.val]?).map (·.rested)) ∧
          (k.count + 1 = k.target → m.heldStack = some (k'.handedOver s.offerSetting) ∧
            u.OpensNew i (s.nextPlan k).1 (s.nextPlan k).2 ∧
            u.kg.seps[i.val]? = (s.kg.seps[i.val]?).map (·.rested.pulsed) ∧
            (s.deliv.notices.length ≤ 4 → r.lanes.length ≤ 6 →
              k'.offerNoticeAt i s.pos.web ∈ t.deliv.notices)))

/-- A knife capture with no row COMMITTED, or in FAULT, is an orphan cut: separators and gates return, one cut is counted
for each held stack, the orphan-cut count rises and ORPHAN_CUT is noticed; no row and no tally changes (R105, R138).
The order in which the notices of several lanes stand for the one cut is the model's choice (log 24). -/
def Obligations.OrphanCutTouchesNoRow : Prop :=
  ∀ (s : State) (x : Word) (rest : List TrackingEvent), s.EventFirst (.knife x) rest →
    s.committedRow? = none ∨ s.trk.state = .fault →
    exec .knifeEvent s = .next { s with
      tau := { s.tau with events := rest }
      kg := { s.kg with
        gates := s.kg.gates.map (·.rested), seps := s.kg.seps.map (·.rested), orphanCuts := s.kg.orphanCuts + 1 }
      pock := { s.pock with lanes := s.pock.lanes.mapIdx fun i l =>
        if i < s.limit then { l with heldStack := l.heldStack.map (·.afterCut s.offerSetting) } else l }
      line := (s.line.appendAll (s.cutNotices.filter fun n => decide (n.kind = .stackStranded))).append
        ⟨.orphanCut, none, none, none, some x, twoFigures (s.kg.orphanCuts + 1)⟩
      deliv := s.deliv.appendAll s.cutNotices }

/-- The reversal forcing merges FORCED into every active lane of every row in one grant. Row by row from the oldest, each lane
of a COMMITTED, CUT or MISSED row that it raises from below REJECT is a late reject: tallied, routed to its stack if that is
present, and reported by LATE_GRADE and, for a stack that has left, LATE_AFTER_DELIVERY. Nothing else changes (R80, R90 to
R95). -/
def Obligations.ForcingCondemnsEveryActiveLane : Prop :=
  ∀ (s : State) (rest : List TrackingEvent), s.EventFirst .forcing rest → s.RowsNumbered →
    exec .reversalForcing s = .next (s.tab.rows.foldl
      (fun u r => u.lateReported r (r.newlyLate fun _ => true))
      { s with tab := { s.tab with rows := s.tab.rows.map (·.condemned) }, tau := { s.tau with events := rest } })

/-- R141: a decline, by DECLINE or by expiry, raises the count and sends the stack into BACKOFF for 2, 4, 8, 16 or 32
cuts, and the sixth strands it; a BACKOFF stack whose wait has run out is offered again with its count kept, and a new
STACK_OFFER is placed. A window or a wait that has not run out leaves OFFER_EXPIRY and
BACKOFF_EXPIRY without effect, and an expiry changes its stack alone, with STACK_STRANDED at the sixth (R140, R142, log 9). -/
def Obligations.DeclinesLengthenBackoff : Prop :=
  (∀ (s : State) (lane : Nat), s.inReset = false →
    ((∀ k ∈ s.heldStack? lane, k.state = .offered → k.remaining ≠ some 0) →
      exec (.offerExpiry lane) s = .next s) ∧
    ((∀ k ∈ s.heldStack? lane, k.state = .backoff → k.remaining ≠ some 0) →
      exec (.backoffExpiry lane) s = .next s) ∧
    ∀ k ∈ s.heldStack? lane, k.state = .offered → k.remaining = some 0 →
      exec (.offerExpiry lane) s = .next { s with
        pock := { s.pock with lanes := s.pock.lanes.modify lane fun l => { l with heldStack := some k.afterDecline } }
        line := if k.declines < 5 then s.line else s.line.append (k.strandedNoticeAt lane s.pos.web)
        deliv := if k.declines < 5 then s.deliv else s.deliv.append (k.strandedNoticeAt lane s.pos.web) }) ∧
  (∀ (s : State) (tag : Byte) (id : StackId) (lane : Nat) (k : Stack), s.Ready .delivery →
    s.stack? id = some (lane, true, k) → k.state = .offered → ∃ t, exec (.decline .delivery tag id) s = .next t ∧
      t.heldStack? lane = some k.afterDecline) ∧
  (∀ (s : State) (lane : Nat) (k : Stack), s.inReset = false → s.heldStack? lane = some k → k.state = .offered →
    k.remaining = some 0 → ∃ t, exec (.offerExpiry lane) s = .next t ∧ t.heldStack? lane = some k.afterDecline) ∧
  (∀ (s : State) (lane : Nat) (k : Stack), s.inReset = false → s.heldStack? lane = some k → k.state = .backoff →
    k.remaining = some 0 → exec (.backoffExpiry lane) s = .next { s with
      pock := { s.pock with lanes := s.pock.lanes.modify lane fun l =>
        { l with heldStack := some { k with state := .offered, remaining := some s.offerSetting } } }
      deliv := s.deliv.append (k.offerNoticeAt lane s.pos.web) }) ∧
  (∀ (s : State) (x : Word) (rest : List TrackingEvent) (lane : Nat) (k : Stack), s.EventFirst (.knife x) rest →
    s.committedRow? = none ∨ s.trk.state = .fault → lane < s.limit → s.heldStack? lane = some k →
    k.remaining = some 1 → ∃ t, exec .knifeEvent s = .next t ∧
      (k.state = .offered → t.heldStack? lane = some ({ k with remaining := some 0 } : Stack).afterDecline) ∧
      (k.state = .backoff →
        t.heldStack? lane = some { k with state := .offered, remaining := some s.offerSetting } ∧
        (s.deliv.notices.length ≤ 10 → k.offerNoticeAt lane s.pos.web ∈ t.deliv.notices))) ∧
  ∀ k : Stack,
    (∀ n, (k.declines, n) ∈ [(0, 2), (1, 4), (2, 8), (3, 16), (4, 32)] →
      k.afterDecline = { k with declines := k.declines + 1, state := .backoff, remaining := some n }) ∧
    (k.declines = 5 → k.afterDecline = { k with declines := 6, state := .stranded, remaining := none })

/-- The Table Access Unit serves a tracking event first; then the first port in turn whose request waits, unless a ready
range step has been passed eight times; then the range step. A request that does not hold the grant waits. After a port is
served the turn begins at the next port, Line to Inspection to Delivery to Line, and the port-streak count rises by one if
the range step is ready; a served range step sets it to 0 (R71 to R75, R151). -/
def Obligations.ArbiterGrantsInOrder : Prop :=
  (∀ s : State, s.tau.events ≠ [] → s.nextGrant = some .event) ∧
  (∀ s : State, s.tau.events = [] → (∀ p, s.portWaits p = false) →
    s.nextGrant = if s.rangeReady then some .range else none) ∧
  (∀ (s : State) (p : Port), s.tau.events = [] → s.portWaits p = true →
    (p = s.tau.pointer ∨ p = nextPort s.tau.pointer ∧ s.portWaits s.tau.pointer = false ∨
      p = nextPort (nextPort s.tau.pointer) ∧ s.portWaits s.tau.pointer = false ∧
        s.portWaits (nextPort s.tau.pointer) = false) →
    s.nextGrant = if s.rangeReady = true ∧ s.tau.streak = 8 then some .range else some (.port p)) ∧
  (∀ (s : State) (p : Port), s.portWaits p = true ↔ ∃ w ∈ (s.port p).request, w.request.Waits) ∧
  (∀ s : State, s.rangeReady = true ↔
    ∃ e ∈ s.rng.queue.head?, wdiff e.next s.tab.nextRow < 0 ∧ s.trk.state ≠ .fault) ∧
  (∀ (s : State) (p : Port) (tag : Byte) (r : Request) (first : JobPart), s.Waits p tag r → r.Waits →
    s.nextGrant ≠ some (.port p) → exec (Taken.command p ⟨tag, r⟩ first) s = .next s) ∧
  (∀ (s : State) (p : Port) (tag : Byte) (r : Request) (first : JobPart), s.Granted p tag r → r.Waits →
    ∃ t, exec (Taken.command p ⟨tag, r⟩ first) s = .next t ∧ (t.port p).request = none ∧
      (p, t.tau.pointer) ∈ [(Port.line, Port.inspection), (.inspection, .delivery), (.delivery, .line)] ∧
      t.tau.streak = s.tau.streak + (if s.rangeReady then 1 else 0)) ∧
  (∀ s : State, s.inReset = false → s.nextGrant ≠ some .range → exec .rangeStep s = .next s) ∧
  ∀ s : State, s.inReset = false → s.nextGrant = some .range →
    ∃ t, exec .rangeStep s = .next t ∧ t.tau = { s.tau with streak := 0 }

/-- One range step: a gone row is counted; FORCE merges FORCED into the masked active lanes of its row, late or in time;
OVERRULE lowers REJECT to GOOD on a TRAVELLING row; TALLY counts and changes nothing. The last step completes the request
with RANGE_DONE on its port alone (R151 to R155). -/
def Obligations.RangeStepActsOnOneRow : Prop :=
  ∀ (s : State) (e : RangeEntry) (rest : List RangeEntry), s.inReset = false → s.nextGrant = some .range →
    s.rng.queue = e :: rest →
    let e' := e.afterStep (s.lookup e.next)
    let stepped : State := match s.lookup e.next with
      | .found r =>
        match e.kind with
        | .force => State.lateReported
            { s with tab := { s.tab with
              rows := s.tab.rows.map fun y => if y.number = r.number then y.forcedOn e.mask else y } }
            r (r.newlyLate fun i => e.mask.getLsbD i)
        | .overrule =>
          if r.state = .travelling then
            { s with tab := { s.tab with
              rows := s.tab.rows.map fun y => if y.number = r.number then y.overruledOn e.mask else y } }
          else s
        | .tally => s
      | .gone | .notYet => s
    exec .rangeStep s = .next (
      if e'.stepped = e.length then
        State.setPort { stepped with rng := { s.rng with queue := rest }, tau := { s.tau with streak := 0 } } e.port
          ((stepped.port e.port).append (e'.doneNotice 0 s.pos.web))
      else { stepped with rng := { s.rng with queue := e' :: rest }, tau := { s.tau with streak := 0 } })

/-- A range request that holds the grant is checked in order and refused, or joins the queue with the current range
number and is answered STARTED (R149, R150). -/
def Obligations.RangeRequestJoinsQueue : Prop :=
  ∀ (s : State) (p : Port) (tag : Byte) (kind : RangeKind) (first : Word) (length : BitVec 16) (mask : Byte)
    (part : JobPart),
    s.Granted p tag (rangeRequest kind first length mask) →
    let u := s.portServed p
    let badMask := mask = 0 ∨ ∃ i < 8, mask.getLsbD i = true ∧ s.limit ≤ i
    let bad := length.toNat = 0 ∨ 256 < length.toNat ∨ badMask ∨ 512 < wdiff first (s.tab.nextRow - 1)
    (bad → exec (Taken.command p ⟨tag, rangeRequest kind first length mask⟩ part) s = .next (u.reply p tag .badArg [])) ∧
    (¬bad → 4 ≤ s.rng.queue.length →
      exec (Taken.command p ⟨tag, rangeRequest kind first length mask⟩ part) s = .next (u.reply p tag .rangeQueueFull [])) ∧
    (¬bad → s.rng.queue.length < 4 →
      exec (Taken.command p ⟨tag, rangeRequest kind first length mask⟩ part) s = .next (State.reply
        { u with rng := ⟨s.rng.queue ++
          [⟨kind, p, s.rng.number, first, length.toNat, mask, first, 0, 0, 0, 0, 0, 0, 0, 0⟩], s.rng.number + 1⟩ }
        p tag .started [s.rng.number, BitVec.ofNat 8 (s.rng.queue.length + 1)]))

/-- When the select falls the outgoing frame is fixed: the reply in its slot, a STALL with the waiting request's tag, or an
IDLE reply with tag 0. When it rises, fewer than sixteen bytes are a framing error that keeps the reply, a POLL only
collects the reply, and a frame other than PORT_CLEAR that met a STALL is discarded and sets STALLED. A POLL command
collects the reply by the exchange in progress or by one of its own. While the select is low, each clock drives one bit of
the fixed frame, the most significant of each byte first, and with it high nothing is driven (R160 to R162, R173; log 3,
log 18). That this holds while RESET_N is low too is the model's choice (log 16). -/
def Obligations.ExchangeFixedThenJudged : Prop :=
  (∀ (s : State) (p : Port), s.inReset = false →
    let q := s.port p
    let plain : ReplyCode → Byte → Reply := fun c tag => ⟨c, tag, s.trk.state, q.flags, []⟩
    (q.exchange.isSome = true → exec (.selectFall p) s = .next s) ∧
    (q.exchange = none →
      (∀ r ∈ q.reply, exec (.selectFall p) s = .next (s.setPort p { q with exchange := some ⟨.reply, r⟩ })) ∧
      (q.reply = none → ∀ w ∈ q.request,
        exec (.selectFall p) s = .next (s.setPort p { q with exchange := some ⟨.stall, plain .stall w.tag⟩ })) ∧
      (q.reply = none → q.request = none →
        exec (.selectFall p) s = .next (s.setPort p { q with exchange := some ⟨.idle, plain .idle 0⟩ })))) ∧
  (∀ (s : State) (p : Port) (bits : List Bool), s.inReset = false →
    let q := s.port p
    let f := clockedBytes bits
    (q.exchange = none → exec (.selectRise p bits) s = .next s) ∧
    ∀ x ∈ q.exchange,
      let left := if x.driven = .reply then none else q.reply
      (bits.length < 128 → exec (.selectRise p bits) s = .next (s.setPort p
        { q with exchange := none, flags := { q.flags with framing := true } })) ∧
      (128 ≤ bits.length → frameByte f 0 = 0 →
        exec (.selectRise p bits) s = .next (s.setPort p { q with exchange := none, reply := left })) ∧
      (128 ≤ bits.length → frameByte f 0 ≠ 0 → frameByte f 0 ≠ 5 → x.driven = .stall →
        exec (.selectRise p bits) s = .next (s.setPort p
          { q with exchange := none, reply := left, flags := { q.flags with stalled := true } }))) ∧
  (∀ (s : State) (p : Port) (tag : Byte), s.inReset = false →
    ((s.port p).exchange = none →
      exec (.poll p tag) s = .next (s.setPort p { s.port p with reply := none })) ∧
    ∀ x ∈ (s.port p).exchange, exec (.poll p tag) s = .next (s.setPort p
      { s.port p with exchange := none, reply := if x.driven = .reply then none else (s.port p).reply })) ∧
  ∀ (s : State) (p : Port) (clock : Nat),
    ((s.port p).exchange = none → s.dataOut p clock = none) ∧
    ∀ x ∈ (s.port p).exchange, x.out.result.length ≤ 13 →
      let r := x.out
      let flag : Bool → Nat := fun b => if b then 1 else 0
      let code := [ReplyCode.idle, .stall, .done, .doneClamped, .started, .nothing, .wrongPort, .badState, .badArg,
        .unknownRow, .rowGone, .unknownStack, .notOffered, .rangeQueueFull, .unknownKind].idxOf r.code
      let bytes : List Byte := [
        BitVec.ofNat 8 (code + 16 * [TrackingState.idle, .hunt, .track, .drain, .fault].idxOf r.state), r.tag,
        BitVec.ofNat 8 (flag r.flags.stalled + 2 * flag r.flags.framing + 4 * flag r.flags.noticeLost +
          8 * flag r.flags.refused + 16 * flag r.flags.spuriousMark)] ++ r.result
      s.dataOut p clock = some ((bytes.getD (clock / 8) 0).getLsbD (7 - clock % 8))

/-- A frame that is taken is checked in order: a kind above 30 is UNKNOWN_KIND; a kind that the catalogue does not permit on
the port is WRONG_PORT; a GRADE list that is not as long as its mask names lanes, a JOB_LOAD part number other than 1 and 2
and a second part that finds no first part of its tag are BAD_ARG. A request that passes is put into the request slot if the
catalogue marks it TAU, and is otherwise carried out at once, as its command says. The arguments stand from byte 2 on in the
catalogue's widths, the least significant byte first, and bytes beyond them are ignored; a frame on the Line Port empties
the part buffer (R160, R162 to R164, R171, R174). -/
def Obligations.TakenFrameCheckedInOrder : Prop :=
  ∀ (s : State) (p : Port) (bits : List Bool), s.inReset = false → 128 ≤ bits.length →
    let q := s.port p
    let f := clockedBytes bits
    let kind := (frameByte f 0).toNat
    let tag := frameByte f 1
    kind ≠ 0 → ∀ x ∈ q.exchange, x.driven ≠ .stall ∨ kind = 5 →
      let closed : State := State.setPort
        { s with partBuffer := if p = .line then none else s.partBuffer } p
        { q with exchange := none, reply := if x.driven = .reply then none else q.reply }
      (30 < kind → exec (.selectRise p bits) s = .next (closed.reply p tag .unknownKind [])) ∧
      (kind ≤ 30 → p ∉ permittedPorts.getD kind [] →
        exec (.selectRise p bits) s = .next (closed.reply p tag .wrongPort [])) ∧
      (p ∈ permittedPorts.getD kind [] →
        (kind = 13 ∧ frameByte f 2 ≠ 1 ∧ frameByte f 2 ≠ 2 ∨
            kind = 26 ∧ (frameByte f 7).toNat ≠ lanesNamed (frameByte f 6) →
          exec (.selectRise p bits) s = .next (closed.reply p tag .badArg [])) ∧
        ∀ (w : Taken) (present : Byte), present ≠ 0 → w.request.Fits → w.bytes present <+: f →
          (FormFaulty s.partBuffer w → exec (.selectRise p bits) s = .next (closed.reply p tag .badArg [])) ∧
          (¬FormFaulty s.partBuffer w →
            (w.request.Waits →
              exec (.selectRise p bits) s = .next (closed.modifyPort p fun y => { y with request := some w })) ∧
            (¬w.request.Waits →
              ∀ first, exec (.selectRise p bits) s = exec (Taken.command p w first) s)))

/-- A request command is the exchange that brings its frame: the select falls, unless it is low already, and rises after the
frame's bits, and a request marked TAU is then served if it holds the grant (the model's convention, log 3). So with no
exchange in progress it is discarded with STALLED where a request waits and no reply does, unless it is PORT_CLEAR; refused
by the port as any frame; put into the slot where it is marked TAU; and a TAU request that stands in its slot already is not
brought again (R160 to R164, R171). -/
def Obligations.RequestCommandBringsItsFrame : Prop :=
  ∀ (s : State) (p : Port) (w : Taken) (first : JobPart), s.inReset = false → w.request.Fits →
    ¬(w.request.Waits ∧ (s.port p).request = some w) →
    let q := s.port p
    let code := (w.request.spelled 1).1
    let taken : State := { s with partBuffer := if p = .line then none else s.partBuffer }
    (∃ u v : State, exec (.selectFall p) s = .next u ∧
      exec (.selectRise p (bitsOf ((w.bytes 1 ++ List.replicate 14 0).take 16))) u = .next v ∧
      exec (Taken.command p w first) s =
        if w.request.Waits ∧ (v.port p).request = some w then exec (Taken.command p w first) v else .next v) ∧
    (q.exchange = none →
      (q.request.isSome = true → q.reply = none → w.request ≠ .portClear →
        exec (Taken.command p w first) s = .next (s.setPort p { q with flags := { q.flags with stalled := true } })) ∧
      (q.request = none ∨ q.reply.isSome = true ∨ w.request = .portClear →
        (p ∉ permittedPorts.getD code [] → exec (Taken.command p w first) s =
          .next (State.reply (taken.setPort p { q with reply := none }) p w.tag .wrongPort [])) ∧
        (p ∈ permittedPorts.getD code [] →
          (FormFaulty s.partBuffer w → exec (Taken.command p w first) s = .next
            (State.reply (taken.setPort p { q with reply := none }) p w.tag .badArg [])) ∧
          (¬FormFaulty s.partBuffer w → w.request.Waits → exec (Taken.command p w first) s =
            exec (Taken.command p w first) (taken.setPort p { q with reply := none, request := some w })))))

/-- R167: TAKE_NOTICE and PEEK_NOTICE read a page of the oldest notice of their port's queue, and TAKE_NOTICE removes
it. -/
def Obligations.NoticeReadAndTaken : Prop :=
  ∀ (s : State) (p : Port) (tag page : Byte) (i : Instr) (remove : Bool), s.Ready p →
    (i = .takeNotice p tag page ∧ remove = true ∨ i = .peekNotice p tag page ∧ remove = false) →
    let u := s.frameTaken p
    (2 < page.toNat → exec i s = .next (u.reply p tag .badArg [])) ∧
    (page.toNat ≤ 2 → (s.port p).notices = [] → exec i s = .next (u.reply p tag .nothing [])) ∧
    (page.toNat ≤ 2 → ∀ n ∈ (s.port p).notices.head?,
      let bytes := if page = 0 then
          [BitVec.ofNat 8 n.kind.code,
            BitVec.ofNat 8 (n.kind.level + (if n.row.isSome then 4 else 0) + (if n.stack.isSome then 8 else 0) +
              (if n.lane.isSome then 16 else 0) + (if n.position.isSome then 32 else 0))] ++
          bytes32 (n.row.getD 0) ++ bytes32 (n.position.getD 0) ++ bytes16 (n.stack.getD 0) ++
          [BitVec.ofNat 8 (n.lane.getD 0)]
        else
          BitVec.ofNat 8 n.values.length ::
            ((if page = 1 then (List.range 6) else [6, 7]).flatMap fun k => bytes16 (n.values.getD k 0))
      exec i s = .next (State.reply
        (u.setPort p { u.port p with
          notices := if remove then (s.port p).notices.tail else (s.port p).notices }) p tag .done bytes))

/-- FETCH_SUMMARY answers with the port's flags, in its result and its header, and clears them all (R165). -/
def Obligations.FetchSummaryClearsFlags : Prop :=
  ∀ (s : State) (p : Port) (tag : Byte), s.Ready p →
    let u := s.frameTaken p
    let f := (s.port p).flags
    exec (.fetchSummary p tag) s = .next (u.setPort p { u.port p with
      request := none
      flags := ⟨false, false, false, false, false⟩
      reply := some ⟨.done, tag, s.trk.state, f, [BitVec.ofNat 8 ((if f.stalled then 1 else 0) +
        (if f.framing then 2 else 0) + (if f.noticeLost then 4 else 0) + (if f.refused then 8 else 0) +
        (if f.spuriousMark then 16 else 0))]⟩ })

/-- R168: SET_ATTENTION sets the port's threshold, and the attention line follows the queued notices at or above it; on
the Delivery Port an OFFERED stack holds it too. -/
def Obligations.AttentionFollowsThreshold : Prop :=
  (∀ (s : State) (p : Port) (tag level : Byte), s.Ready p →
    let u := s.frameTaken p
    (3 < level.toNat → exec (.setAttention p tag level) s = .next (u.reply p tag .badArg [])) ∧
    ∀ t : Threshold, (level.toNat, t) ∈ [(0, Threshold.info), (1, .warn), (2, .alarm), (3, .off)] →
      exec (.setAttention p tag level) s =
        .next (State.reply (u.setPort p { u.port p with threshold := t }) p tag .done [])) ∧
  (∀ (s : State) (p : Port), s.inReset = false →
    (s.attention p = true ↔
      (∃ n ∈ (s.port p).notices,
        (s.port p).threshold = .info ∨ (s.port p).threshold = .warn ∧ 1 ≤ n.kind.level ∨
          (s.port p).threshold = .alarm ∧ 2 ≤ n.kind.level) ∨
      p = .delivery ∧ ∃ l ∈ s.pock.lanes, ∃ k ∈ l.heldStack, k.state = .offered)) ∧
  (∀ (s : State) (p : Port), s.inReset = true → s.attention p = false) ∧
  ∀ (straps : Straps) (a b : Bool) (s : State) (p : Port), ∃ t,
    exec (.resetNReleased straps a b) s = .next t ∧ (t.port p).threshold = .warn

/-- R169: PORT_CLEAR empties its own port's slots, queue, flags and, on the Line Port, the part buffer, returns the
threshold to WARN and is answered DONE; it is taken and carried out at once even where the exchange drove out STALL, and
nothing else changes. The command is the exchange that brings the frame (log 3); the frame itself is carried out by
SELECT_RISE in the same way. -/
def Obligations.PortClearEmptiesItsPort : Prop :=
  ∀ (s : State) (p : Port) (tag : Byte), s.inReset = false →
    let cleared : State := State.setPort
      { s with partBuffer := if p = .line then none else s.partBuffer } p
      { request := none
        reply := some ⟨.done, tag, s.trk.state, ⟨false, false, false, false, false⟩, []⟩
        exchange := none
        notices := []
        flags := ⟨false, false, false, false, false⟩
        threshold := .warn }
    exec (.portClear p tag) s = .next cleared ∧
    ∀ bits : List Bool, 128 ≤ bits.length → (s.port p).exchange.isSome = true →
      frameByte (clockedBytes bits) 0 = 5 → frameByte (clockedBytes bits) 1 = tag →
      exec (.selectRise p bits) s = .next cleared

/-- READ_STATUS answers with the values of its page, as they stand at the grant, and changes nothing else (R14, R36, R55,
R175). -/
def Obligations.StatusPagesReported : Prop :=
  ∀ (s : State) (p : Port) (tag page : Byte), s.Granted p tag (.readStatus page) →
    let flag : Bool → Nat := fun b => if b then 1 else 0
    let byte : Nat → Byte := BitVec.ofNat 8
    let slot : Option SlotNumber → Byte := fun n => BitVec.ofNat 8 ((n.map (·.val)).getD 0)
    let fly := (s.pos.deadlines.filter fun d => decide (d.kind = .flywheel)).head?.map (·.position)
    let pages : List (List Byte) := [
      [byte (flag s.trk.armed.isSome), byte s.trk.state.code, slot s.trk.armed,
        byte ((s.trk.fault.map (·.kind.code)).getD 0), byte (flag (s.trk.fault.any (·.more)))] ++ bytes32 s.tab.nextRow,
      bytes32 s.pos.web ++ bytes32 s.pos.frontier,
      bytes32 (BitVec.ofInt 32 s.trk.oSync) ++ bytes32 (BitVec.ofInt 32 s.trk.offset),
      bytes32 (BitVec.ofNat 32 s.trk.rm) ++ bytes32 (BitVec.ofNat 32 s.trk.oi),
      bytes16 (BitVec.ofInt 16 s.trk.ef) ++ [byte s.trk.miss] ++ bytes32 s.trk.pmLast,
      byte (flag fly.isSome + 2 * flag (!s.tab.rows.isEmpty)) :: bytes32 (fly.getD 0) ++
        bytes32 ((s.tab.rows.head?.map (·.number)).getD 0) ++ bytes32 ((s.tab.rows.getLast?.map (·.number)).getD 0),
      [byte (flag s.jobs.plan.isSome), byte s.limit, byteOfBits (s.jobs.slots.map (·.isSome)), slot s.jobs.plan],
      [byte (flag s.jobs.scheduled.isSome + 2 * flag s.jobs.carried.isSome), slot (s.jobs.scheduled.map (·.slot))] ++
        bytes32 ((s.jobs.scheduled.map (·.atRow)).getD 0) ++
        [slot (s.jobs.carried.map (·.previous)), slot (s.jobs.carried.map (·.new))] ++
        bytes32 ((s.jobs.carried.map (·.row)).getD 0)]
    (7 < page.toNat → exec (.readStatus p tag page) s = .next ((s.portServed p).reply p tag .badArg [])) ∧
    ∀ b ∈ pages[page.toNat]?, exec (.readStatus p tag page) s = .next ((s.portServed p).reply p tag .done b)

/-- READ_ROW checks its page, looks its row up by signed differences, and answers with the page, with ROW_GONE and its
notice, or with UNKNOWN_ROW; the table, numbered as R57 says, does not change. The pages are laid out as R69 and R175 say,
the lane codes at 15 and 255 where a lane has none (R68, R69, R175). -/
def Obligations.RowReadByNumberAndPage : Prop :=
  (∀ (s : State) (p : Port) (tag : Byte) (n : Word) (page : Byte), s.Granted p tag (.readRow n page) → s.RowsNumbered →
    let u := s.portServed p
    let oldest := (s.tab.rows.head?.map (·.number)).getD s.tab.nextRow
    let asked := BitVec.ofNat 16 ([Port.line, .inspection, .delivery].idxOf p)
    (5 < page.toNat → exec (.readRow p tag n page) s = .next (u.reply p tag .badArg [])) ∧
    (page.toNat ≤ 5 →
      (wdiff n oldest < 0 → exec (.readRow p tag n page) s = .next (State.reply
        { u with line := s.line.append ⟨.rowGone, some n, none, none, none, [asked]⟩ } p tag .rowGone [])) ∧
      (0 ≤ wdiff n oldest → wdiff n oldest < s.tab.rows.length → ∃ t, exec (.readRow p tag n page) s = .next t ∧
        ∃ r ∈ s.tab.rows[(wdiff n oldest).toNat]?, r.number = n ∧ t = u.reply p tag .done (r.page page.toNat)) ∧
      ((s.tab.rows.length : Int) ≤ wdiff n oldest →
        exec (.readRow p tag n page) s = .next (u.reply p tag .unknownRow [])))) ∧
  (∀ r : Row,
    let lane : Nat → Option RowLane := fun i => r.lanes[i]?
    let stack : Nat → Option StackId := fun i => (lane i).bind (·.stack)
    let flag : Bool → Nat := fun b => if b then 1 else 0
    let grade : Nat → Byte := fun i => BitVec.ofNat 8 ((lane i).elim 15 fun c =>
      [Grade.pending, .good, .minor, .reject, .forced, .void].idxOf c.grade)
    let fate : Nat → Byte := fun i => (((lane i).bind (·.disposition)).elim 255 fun d =>
      BitVec.ofNat 8 ([Disposition.stack, .divert, .manual].idxOf d + 1 + 16 * (((lane i).bind (·.reason)).elim 0 fun x =>
        [DivertReason.grade, .ungraded, .minorPolicy, .blocked, .double].idxOf x + 1)))
    r.page 0 = bytes32 r.number ++
      [BitVec.ofNat 8 ([Origin.sensed, .flywheel, .resync].idxOf r.origin + 16 * flag r.clamped + 32 * flag r.triggered +
        64 * flag r.double + 128 * flag r.misregistered), BitVec.ofNat 8 r.slot.val,
        BitVec.ofNat 8 ([RowState.travelling, .committed, .cut, .missed].idxOf r.state)] ++
      (List.range 6).map grade ∧
    r.page 1 = bytes32 r.pm ++ bytes32 r.trigger ∧ r.page 2 = bytes32 r.arrival ++ bytes32 r.commit ∧
    (r.lanes.length ≤ 6 → ∃ m : Byte, r.page 3 = (List.range 6).map fate ++ [m] ∧
      ∀ i, m.getLsbD i = (lane i).any (·.late)) ∧
    r.page 4 = BitVec.ofNat 8 (flag (stack 0).isSome + 2 * flag (stack 1).isSome + 4 * flag (stack 2).isSome +
        8 * flag r.cutError.isSome) :: bytes16 ((stack 0).getD 0) ++ bytes16 ((stack 1).getD 0) ++
      bytes16 ((stack 2).getD 0) ++ bytes32 (BitVec.ofInt 32 (r.cutError.getD 0)) ∧
    r.page 5 = BitVec.ofNat 8 (flag (stack 3).isSome + 2 * flag (stack 4).isSome + 4 * flag (stack 5).isSome) ::
      bytes16 ((stack 3).getD 0) ++ bytes16 ((stack 4).getD 0) ++ bytes16 ((stack 5).getD 0))

/-- READ_STACK answers with a page of the present stack that its id names, and changes nothing else; a page above 6 is
refused, and so is an id of no present stack (R132, R175). That the page is checked first, where both are faulty, is the
model's choice (log 30). -/
def Obligations.StackPagesReported : Prop :=
  ∀ (s : State) (p : Port) (tag : Byte) (id : StackId) (page : Byte), s.Ready p →
    let u := s.frameTaken p
    let flag : Bool → Nat := fun b => if b then 1 else 0
    (6 < page.toNat → exec (.readStack p tag id page) s = .next (u.reply p tag .badArg [])) ∧
    (page.toNat ≤ 6 → (∀ l ∈ s.pock.lanes, l.has id = false) →
      exec (.readStack p tag id page) s = .next (u.reply p tag .unknownStack [])) ∧
    (page.toNat ≤ 6 → ∀ (lane : Nat) (held : Bool) (k : Stack), s.stack? id = some (lane, held, k) →
      let suspects : Nat → List Byte := fun i =>
        BitVec.ofNat 8 (flag (decide (i < k.suspects.length)) + 2 * flag (decide (i + 1 < k.suspects.length))) ::
          bytes32 (k.suspects.getD i 0) ++ bytes32 (k.suspects.getD (i + 1) 0)
      let isHeld := decide (k.state ≠ .opened)
      k.id = id ∧ (if held then s.heldStack? lane else s.openStack? lane) = some k ∧
      exec (.readStack p tag id page) s = .next (u.reply p tag .done (
        if page = 0 then bytes16 k.id ++ [BitVec.ofNat 8 k.lane, BitVec.ofNat 8 k.slot.val,
          BitVec.ofNat 8 ([StackState.opened, .offered, .backoff, .stranded].idxOf k.state),
          BitVec.ofNat 8 (flag k.short + 2 * flag k.untracked + 4 * flag k.interrupted + 8 * flag k.cleared)] ++
          bytes16 (BitVec.ofNat 16 k.target) ++ bytes16 (BitVec.ofNat 16 k.count)
        else if page = 1 then BitVec.ofNat 8 (flag k.firstRow.isSome + 2 * flag k.lastRow.isSome) ::
          bytes16 (BitVec.ofNat 16 k.minor) ++ bytes32 (k.firstRow.getD 0) ++ bytes32 (k.lastRow.getD 0)
        else if page = 2 then BitVec.ofNat 8 (flag isHeld + 2 * flag k.remaining.isSome) ::
          BitVec.ofNat 8 (if isHeld then k.declines else 0) ::
          bytes16 (BitVec.ofNat 16 (k.remaining.getD 0)) ++
          [BitVec.ofNat 8 k.suspects.length, BitVec.ofNat 8 (flag k.overflowed)]
        else suspects (2 * (page.toNat - 3)))))

/-- READ_LANE answers with a page of its lane and changes nothing else; CLEAR_TALLIES sets the four tallies of its masked
lanes to 0 and changes nothing else (R134, R175). -/
def Obligations.LanePagesAndTallyClears : Prop :=
  (∀ (s : State) (p : Port) (tag lane page : Byte), s.Ready p →
    let u := s.frameTaken p
    let flag : Bool → Nat := fun b => if b then 1 else 0
    (s.limit ≤ lane.toNat ∨ 2 < page.toNat →
      exec (.readLane p tag lane page) s = .next (u.reply p tag .badArg [])) ∧
    (lane.toNat < s.limit → page.toNat ≤ 2 → ∀ l ∈ s.lane? lane.toNat,
      exec (.readLane p tag lane page) s = .next (u.reply p tag .done (
        if page = 0 then bytes32 l.stacked ++ bytes32 l.diverted
        else if page = 1 then bytes32 l.manual ++ bytes32 l.lateRejects
        else BitVec.ofNat 8 (flag l.openStack.isSome + 2 * flag l.heldStack.isSome) ::
          bytes16 ((l.openStack.map (·.id)).getD 0) ++ bytes16 ((l.heldStack.map (·.id)).getD 0) ++
          [BitVec.ofNat 8 l.pendingCount, BitVec.ofNat 8 (flag l.overflow + 2 * flag l.closing),
            BitVec.ofNat 8 (flag l.deferShort + 2 * flag l.deferUntracked)])))) ∧
  ∀ (s : State) (tag mask : Byte), s.Ready .line →
    let u := s.frameTaken .line
    let bad := mask = 0 ∨ ∃ i < 8, mask.getLsbD i = true ∧ s.limit ≤ i
    let cleared := s.pock.lanes.mapIdx fun i l =>
      if mask.getLsbD i then { l with stacked := 0, diverted := 0, manual := 0, lateRejects := 0 } else l
    (bad → exec (.clearTallies .line tag mask) s = .next (u.reply .line tag .badArg [])) ∧
    (¬bad → exec (.clearTallies .line tag mask) s =
      .next (State.reply { u with pock := { s.pock with lanes := cleared } } .line tag .done []))

/-- A first JOB_LOAD part is held with its tag. A second part that finds no first part of its tag is refused with BAD_ARG and
empties the buffer. One that finds it makes the JOB_LOAD with it: for a slot that tracking protects it is refused with
BAD_STATE before its fields are looked at (R4, R164); otherwise it names its first failing field in the order of R5, or makes
the slot VALID with the carried values, five of them brought into range and reported by DONE_CLAMPED (R1, R5, R6, R174,
R175). -/
def Obligations.JobLoadCheckedAndStored : Prop :=
  ((∀ (s : State) (tag : Byte) (part : JobPart), s.Ready .line →
    exec (.jobLoadPart .line tag part) s =
      .next (State.reply { s.frameTaken .line with partBuffer := some ⟨tag, part⟩ } .line tag .done [1])) ∧
  (∀ (s : State) (tag : Byte) (first : JobPart) (rest : JobRest), s.Ready .line → s.partBuffer.map (·.tag) ≠ some tag →
    exec (.jobLoad .line tag first rest) s = .next ((s.frameTaken .line).reply .line tag .badArg [])) ∧
  ∀ (s : State) (tag : Byte) (part first : JobPart) (rest : JobRest), s.Ready .line →
    s.partBuffer = some ⟨tag, part⟩ → s.trk.state ≠ .idle → ∀ n : SlotNumber, n.val = part.slot.toNat →
    (s.trk.armed = some n ∨ s.jobs.scheduled.map (·.slot) = some n ∨ s.jobs.carried.map (·.previous) = some n) →
    exec (.jobLoad .line tag first rest) s = .next ((s.frameTaken .line).reply .line tag .badState [])) ∧
  (∀ (s : State) (tag : Byte) (part first : JobPart) (rest : JobRest), s.Ready .line →
    s.partBuffer = some ⟨tag, part⟩ →
    (s.trk.state = .idle ∨ ∀ n : SlotNumber, n.val = part.slot.toNat →
      s.trk.armed ≠ some n ∧ s.jobs.scheduled.map (·.slot) ≠ some n ∧ s.jobs.carried.map (·.previous) ≠ some n) →
    let u := s.frameTaken .line
    let rn := part.rn.toNat
    let checks : List Bool := [
      decide (3 < part.slot.toNat), decide (rn < 64 ∨ 1048575 < rn),
      decide (part.lk.toNat < 256 ∨ 92160 < part.lk.toNat), decide (part.lk.toNat < part.li.toNat + 256),
      decide (part.lead.toNat = 0 ∨ rn / 4 < part.lead.toNat), decide (rest.wc.toNat = 0 ∨ rn / 16 < rest.wc.toNat),
      decide (rest.lanes = 0) || (List.range 8).any fun i => rest.lanes.getLsbD i && decide (s.limit ≤ i)]
    let target := min 9999 (max 10 rest.target.toNat)
    let k := min 6 rest.k.toNat
    let j := min 5 (max 2 rest.j.toNat)
    let missLimit := min 8 (max 1 rest.missLimit.toNat)
    let tolerance := min (rn / 2) rest.tolerance.toNat
    let bit : Bool → Nat := fun b => if b then 1 else 0
    let changed := bit (decide (k ≠ rest.k.toNat)) + 2 * bit (decide (j ≠ rest.j.toNat)) +
      4 * bit (decide (target ≠ rest.target.toNat)) + 8 * bit (decide (missLimit ≠ rest.missLimit.toNat)) +
      16 * bit (decide (tolerance ≠ rest.tolerance.toNat))
    let job : Job := ⟨rn, part.lk.toNat, part.li.toNat, part.lead.toNat, rest.wc.toNat, rest.lanes, target, k, j,
      missLimit, tolerance, if rest.policies.getLsbD 0 then .reject else .trust,
      if rest.policies.getLsbD 1 then .divert else .stack, if rest.policies.getLsbD 2 then .divert else .stack⟩
    let slots := s.jobs.slots.set part.slot.toNat (some job)
    (∀ n, checks.findIdx? id = some n →
      exec (.jobLoad .line tag first rest) s = .next (u.reply .line tag .badArg [BitVec.ofNat 8 n])) ∧
    (checks.all (· == false) = true →
      exec (.jobLoad .line tag first rest) s = .next (State.reply { u with jobs := { s.jobs with slots := slots } } .line
        tag (if changed = 0 then .done else .doneClamped) (if changed = 0 then [] else [BitVec.ofNat 8 changed]))))

/-- A JOB_SWITCH that names another slot than the armed one is refused by its first failing condition or becomes the
scheduled switch, in place of any other (R8). -/
def Obligations.JobSwitchScheduled : Prop :=
  ∀ (s : State) (tag slot : Byte) (atRow : Word), s.Ready .line →
    let u := s.frameTaken .line
    (s.trk.armed = none ∨ s.trk.state = .idle ∨ s.trk.state = .drain →
      exec (.jobSwitch .line tag slot atRow) s = .next (u.reply .line tag .badState [])) ∧
    ∀ a : SlotNumber, s.trk.armed = some a → s.trk.state = .hunt ∨ s.trk.state = .track ∨ s.trk.state = .fault →
      slot.toNat ≠ a.val →
      (s.jobs.carried.isSome = true →
        exec (.jobSwitch .line tag slot atRow) s = .next (u.reply .line tag .badState [])) ∧
      (s.jobs.carried = none →
        ((∀ n : SlotNumber, n.val = slot.toNat → ∀ job ∈ s.validJob? n,
            ¬(job.rn = (s.job a).rn ∧ job.lk = (s.job a).lk ∧ job.li = (s.job a).li) ∨
              wdiff atRow s.tab.nextRow < 0 ∨ 65535 < wdiff atRow s.tab.nextRow) →
          exec (.jobSwitch .line tag slot atRow) s = .next (u.reply .line tag .badArg [])) ∧
        ∀ n : SlotNumber, n.val = slot.toNat → ∀ job ∈ s.validJob? n,
          job.rn = (s.job a).rn → job.lk = (s.job a).lk → job.li = (s.job a).li →
          0 ≤ wdiff atRow s.tab.nextRow → wdiff atRow s.tab.nextRow ≤ 65535 →
          exec (.jobSwitch .line tag slot atRow) s = .next (State.reply
            { u with jobs := { s.jobs with scheduled := some ⟨n, atRow⟩ } } .line tag .done []))

/-- R9: a JOB_SWITCH that names the armed slot cancels the scheduled switch, whatever is carried and whatever row it
names; the conditions on the state and on the slot's validity still hold. -/
def Obligations.SwitchToArmedSlotCancels : Prop :=
  ∀ (s : State) (tag slot : Byte) (atRow : Word) (a : SlotNumber), s.Ready .line →
    s.trk.armed = some a → slot.toNat = a.val →
    let u := s.frameTaken .line
    (s.trk.state = .idle ∨ s.trk.state = .drain →
      exec (.jobSwitch .line tag slot atRow) s = .next (u.reply .line tag .badState [])) ∧
    (s.trk.state = .hunt ∨ s.trk.state = .track ∨ s.trk.state = .fault →
      (s.validJob? a = none → exec (.jobSwitch .line tag slot atRow) s = .next (u.reply .line tag .badArg [])) ∧
      ((s.validJob? a).isSome = true → exec (.jobSwitch .line tag slot atRow) s = .next (State.reply
        { u with jobs := { s.jobs with scheduled := none } } .line tag .done [])))

/-- ARM is refused out of IDLE and for a slot that is not VALID. Otherwise the slot is armed, the arithmetic starts from
Rn, the plan in force changes and the empty stacks are re-planned, the tracker hunts, and the reversal check is made at
once (R7, R20, R26, R39, R46). The stacks that open take, in ascending lane order (log 29), the next ids offered that no
present stack holds, and the next stack id moves past the last of them (R119). -/
def Obligations.ArmStartsHunt : Prop :=
  ∀ (s : State) (tag slot : Byte), s.Ready .line →
    let u := s.frameTaken .line
    (s.trk.state ≠ .idle → exec (.arm .line tag slot) s = .next (u.reply .line tag .badState [])) ∧
    (s.trk.state = .idle → (∀ n : SlotNumber, n.val = slot.toNat → s.validJob? n = none) →
      exec (.arm .line tag slot) s = .next (u.reply .line tag .badArg [])) ∧
    ∀ n : SlotNumber, n.val = slot.toNat → ∀ job ∈ s.validJob? n, s.trk.state = .idle →
      let o := (job.lk * job.rn + 128) / 256
      let oi := (job.li * job.rn + 128) / 256
      let back := wdiff s.pos.frontier s.pos.web
      let hunting := u.line.append (stateChangeNotice .hunt s.pos.web)
      let notice : Notice :=
        ⟨.reversal, none, none, none, some s.pos.web, twoFigures (s.pos.frontier - s.pos.web)⟩
      ∃ t, exec (.arm .line tag slot) s = .next t ∧
        (back ≤ job.tolerance → t = { u with
          pos := { s.pos with revArmed := true }
          trk := ⟨.hunt, some n, job.rn, o, o, oi, 0, 0, s.trk.pmLast, s.trk.fault⟩
          jobs := { s.jobs with plan := some n }
          pock := t.pock
          line := hunting.replied .hunt tag .done [] }) ∧
        ((job.tolerance : Int) < back →
          DeadlinesEntered s t (fun d => decide (d = .flywheel)) [] ∧
          t = { u with
            pos := { s.pos with
              deadlines := t.pos.deadlines, fired := t.pos.fired, flywheelCrossing := none, revArmed := false }
            trk := ⟨.hunt, some n, job.rn, o, o, oi, 0, 0, s.trk.pmLast,
              some (offeredRecord s.trk.fault .reversal none s.pos.web)⟩
            jobs := { s.jobs with plan := some n }
            tau := { s.tau with events := s.tau.events ++ [.forcing] }
            pock := t.pock
            line := (hunting.append notice).replied .hunt tag .done []
            insp := s.insp.append notice }) ∧
        t.pock.lanes.length = s.pock.lanes.length ∧
        (s.StackIdsDistinct →
          let opens := (List.range s.limit).filter fun i => (s.lane? i).any (·.openStack.isNone)
          let ids := freeIds s.pock.nextId s.presentIds
          (opens.map fun i => (t.openStack? i).map (·.id)) = (ids.take opens.length).map some ∧
          t.pock.nextId = ((ids.take opens.length).getLast?.map fun i => offeredId i 1).getD s.pock.nextId) ∧
        ∀ i : Fin s.pock.lanes.length, ∀ m ∈ t.lane? i,
          let l := s.pock.lanes[i]
          (s.limit ≤ i.val → m = l) ∧
          (i.val < s.limit →
            (l.openStack = none → m = { l with openStack := m.openStack } ∧ t.OpensNew i n job.target) ∧
            ∀ k ∈ l.openStack,
              (k.count = 0 → m = { l with openStack := some { k with slot := n, target := job.target } }) ∧
              (k.count ≠ 0 → m = l))

/-- DISARM: refused in IDLE and FAULT, without effect in DRAIN; from HUNT and TRACK it leads to DRAIN while a row is
TRAVELLING or COMMITTED, and otherwise to IDLE with everything that entry brings: the range queue is abandoned with its
RANGE_DONE notices, every lane's closure is asked for with its STACK_OFFER or LANE_BLOCKED, and STATE_CHANGE follows (R38,
R42, R44, R56, R125, R126, R137, R156). The order of these notices in one queue is the model's choice (log 17). -/
def Obligations.DisarmDrainsOrIdles : Prop :=
  ∀ (s : State) (tag : Byte), s.Ready .line →
    let u := s.frameTaken .line
    (s.trk.state = .idle ∨ s.trk.state = .fault →
      exec (.disarm .line tag) s = .next (u.reply .line tag .badState [])) ∧
    (s.trk.state = .drain → exec (.disarm .line tag) s = .next (u.reply .line tag .done [])) ∧
    (s.trk.state = .hunt ∨ s.trk.state = .track → ∃ t, exec (.disarm .line tag) s = .next t ∧
      DeadlinesEntered s t (fun d => decide (d = .flywheel)) [] ∧
      (leftToDrain s.tab.rows = true → t = { u with
        pos := { s.pos with deadlines := t.pos.deadlines, fired := t.pos.fired, flywheelCrossing := none }
        trk := { s.trk with state := .drain }
        line := (u.line.append (stateChangeNotice .drain s.pos.web)).replied .drain tag .done [] }) ∧
      (leftToDrain s.tab.rows = false →
        let closures := s.closureNotices false
        ClosuresAsked s t false ∧
        t = { u with
          pos := { s.pos with
            deadlines := t.pos.deadlines, fired := t.pos.fired, flywheelCrossing := none, revArmed := false }
          trk := { s.trk with state := .idle, armed := none }
          jobs := { s.jobs with scheduled := none, carried := none }
          tau := { s.tau with streak := 0 }
          kg := { s.kg with seps := t.kg.seps, cutDebt := false }
          pock := t.pock
          rng := { s.rng with queue := [] }
          line := (u.line.appendAll (s.abandoned .line ++ (closures.filter fun n => decide (n.kind = .laneBlocked)) ++
            [stateChangeNotice .idle s.pos.web])).replied .idle tag .done []
          insp := s.insp.appendAll (s.abandoned .inspection)
          deliv := s.deliv.appendAll (s.abandoned .delivery ++ closures) }))

/-- RESTART is refused out of FAULT and with no slot armed. Otherwise the table is emptied, waiting marks will make no
row, the range queue is abandoned, the debt, the separators and the pending counts are cleared, and the tracker hunts,
with the reversal check made at once (R51, R61, R67, R156). -/
def Obligations.RestartEmptiesTableAndHunts : Prop :=
  ∀ (s : State) (tag : Byte), s.Ready .line →
    let u := s.frameTaken .line
    (s.trk.state ≠ .fault ∨ s.trk.armed = none →
      exec (.restart .line tag) s = .next (u.reply .line tag .badState [])) ∧
    ∀ n : SlotNumber, s.trk.state = .fault → s.trk.armed = some n →
      let back := wdiff s.pos.frontier s.pos.web
      let reversed := decide (((s.job n).tolerance : Int) < back)
      let notice : Notice :=
        ⟨.reversal, none, none, none, some s.pos.web, twoFigures (s.pos.frontier - s.pos.web)⟩
      let events := s.tau.events.map fun e => match e with | .mark x _ => .mark x false | _ => e
      let hunting := (u.line.appendAll (s.abandoned .line)).append (stateChangeNotice .hunt s.pos.web)
      let empty : RowTable := { s.tab with rows := [] }
      ∃ t, exec (.restart .line tag) s = .next t ∧
        DeadlinesEntered s t (fun d => decide (d ≠ .triggerOff)) [] ∧
        t = { u with
          pos := { s.pos with
            deadlines := t.pos.deadlines, fired := t.pos.fired, flywheelCrossing := none, revArmed := !reversed }
          trk := { s.trk with
            state := .hunt, miss := 0, ef := 0
            fault := if reversed then some (offeredRecord s.trk.fault .reversal none s.pos.web) else s.trk.fault }
          tab := empty
          tau := { s.tau with events := if reversed then events ++ [.forcing] else events, streak := 0 }
          kg := { s.kg with seps := s.kg.seps.map (·.rested), cutDebt := false }
          pock := { s.pock with lanes := s.pock.lanes.map fun l => { l with pendingCount := 0 } }
          rng := { s.rng with queue := [] }
          line := (if reversed then hunting.append notice else hunting).replied .hunt tag .done []
          insp := if reversed then (s.insp.appendAll (s.abandoned .inspection)).append notice
            else s.insp.appendAll (s.abandoned .inspection)
          deliv := s.deliv.appendAll (s.abandoned .delivery) }

/-- RESET_TRACKING, in every state: IDLE with no slot armed and the arithmetic at 0, the table emptied, the range queue
abandoned with its RANGE_DONE notices, the gates at DIVERT, the debt and the separators cleared, every counting stack closed
SHORT and UNTRACKED with its STACK_OFFER or LANE_BLOCKED, no switch and no plan in force, and STATE_CHANGE from another state
than IDLE. The rest is kept (R38, R52, R56, R61, R67, R77, R116, R125, R126, R137, R156, R170). The order of these notices in
one queue is the model's choice (log 17), and so is, in IDLE or in FAULT entered from IDLE after a JOB_LOAD of the slot that
the plan in force names, the target of the stacks that the closures open (log 28). -/
def Obligations.ResetTrackingReturnsToIdle : Prop :=
  ∀ (s : State) (tag : Byte), s.Ready .line →
    let u := s.frameTaken .line
    let closures := s.closureNotices true
    ∃ t, exec (.resetTracking .line tag) s = .next t ∧
      DeadlinesEntered s t (fun d => decide (d ≠ .triggerOff)) [] ∧
      ClosuresAsked
        { s with pock := { s.pock with lanes := s.pock.lanes.map fun l => { l with pendingCount := 0 } } } t true ∧
      t = { u with
        pos := { s.pos with
          deadlines := t.pos.deadlines, fired := t.pos.fired, flywheelCrossing := none, revArmed := false }
        trk := ⟨.idle, none, 0, 0, 0, 0, 0, 0, s.trk.pmLast, s.trk.fault⟩
        jobs := ⟨s.jobs.slots, none, none, none⟩
        tab := { s.tab with rows := [] }
        tau := { s.tau with
          events := s.tau.events.map fun e => match e with | .mark x _ => .mark x false | _ => e
          streak := 0 }
        kg := { s.kg with
          gates := s.kg.gates.map (·.rested), seps := s.kg.seps.map (·.rested), cutDebt := false }
        pock := t.pock
        rng := { s.rng with queue := [] }
        line := (u.line.appendAll (s.abandoned .line ++ (closures.filter fun n => decide (n.kind = .laneBlocked)) ++
          (if s.trk.state = .idle then [] else [stateChangeNotice .idle s.pos.web]))).replied .idle tag .done []
        insp := s.insp.appendAll (s.abandoned .inspection)
        deliv := s.deliv.appendAll (s.abandoned .delivery ++ closures) }

/-- R54: READ_FAULT answers with the fault record and leaves it; FAULT_CLEAR empties it and changes nothing else, in
every tracking state; a later offer fills the emptied record with MORE clear. -/
def Obligations.FaultRecordReadAndCleared : Prop :=
  (∀ (s : State) (tag : Byte), s.Ready .line →
    let u := s.frameTaken .line
    (s.trk.fault = none → exec (.readFault .line tag) s =
      .next (u.reply .line tag .done [0, 0, 0, 0, 0, 0, 0, 0, 0, 0, 0])) ∧
    ∀ r ∈ s.trk.fault, exec (.readFault .line tag) s = .next (u.reply .line tag .done
      ([if r.row.isSome then 1 else 0, BitVec.ofNat 8 ([FaultKind.driftLimit, .registerLost, .reversal, .missedCut,
        .tableFull, .encoderFault].idxOf r.kind + 1)] ++ bytes32 (r.row.getD 0) ++ bytes32 r.position ++
        [if r.more then 1 else 0]))) ∧
  (∀ (s : State) (tag : Byte), s.Ready .line →
    exec (.faultClear .line tag) s =
      .next (State.reply { s.frameTaken .line with trk := { s.trk with fault := none } } .line tag .done [])) ∧
  ∀ (k : FaultKind) (row : Option Word) (x : Word), offeredRecord none k row x = ⟨k, row, x, false⟩

/-- LINE_MODE is checked, refused for a gate while a row is COMMITTED, and otherwise drives the line at once: at its stored
level when made MANUAL, at DIVERT or deasserted when made FUNCTIONAL; the mode in force leaves the level. LINE_SET and
LINE_CLEAR store the manual level, and drive a MANUAL line with it at once (R99, R113, R114, R115). -/
def Obligations.LineRequestsDriveManualLines : Prop :=
  (∀ (s : State) (tag line lane mode : Byte), s.Ready .line →
    let u := s.frameTaken .line
    let bad := 1 < line.toNat ∨ s.limit ≤ lane.toNat ∨ 1 < mode.toNat
    let change := fun l : FieldLine =>
      if l.mode = (if mode = 0 then .functional else .manual) then l
      else if mode = 0 then ⟨.functional, false, l.stored⟩
      else ⟨.manual, l.stored, l.stored⟩
    (bad → exec (.lineMode .line tag line lane mode) s = .next (u.reply .line tag .badArg [])) ∧
    (¬bad → line = 0 → (∃ r ∈ s.tab.rows, r.state = .committed) →
      exec (.lineMode .line tag line lane mode) s = .next (u.reply .line tag .badState [])) ∧
    (¬bad → line = 0 → (∀ r ∈ s.tab.rows, r.state ≠ .committed) →
      exec (.lineMode .line tag line lane mode) s = .next (State.reply
        { u with kg := { s.kg with gates := s.kg.gates.modify lane.toNat change } } .line tag .done [])) ∧
    (¬bad → line = 1 → exec (.lineMode .line tag line lane mode) s = .next (State.reply
      { u with kg := { s.kg with seps := s.kg.seps.modify lane.toNat change } } .line tag .done []))) ∧
  (∀ (s : State) (tag line lane : Byte) (i : Instr) (level : Bool), s.Ready .line →
    (i = .lineSet .line tag line lane ∧ level = true ∨ i = .lineClear .line tag line lane ∧ level = false) →
    let u := s.frameTaken .line
    let bad := 1 < line.toNat ∨ s.limit ≤ lane.toNat
    let change := fun l : FieldLine => ⟨l.mode, if l.mode = .manual then level else l.on, level⟩
    (bad → exec i s = .next (u.reply .line tag .badArg [])) ∧
    (¬bad → line = 0 → exec i s = .next (State.reply
      { u with kg := { s.kg with gates := s.kg.gates.modify lane.toNat change } } .line tag .done [])) ∧
    (¬bad → line = 1 → exec i s = .next (State.reply
      { u with kg := { s.kg with seps := s.kg.seps.modify lane.toNat change } } .line tag .done [])))

/-- CLEAR_POCKET with scope HELD: without a held stack NOTHING; otherwise POCKET_CLEARED, the removal of R127 with a deferred
closure that waits, and LANE_UNBLOCKED (R125, R127, R129). With scope ALL, a lane without stacks answers NOTHING;
otherwise the open stack is discarded with any CLOSING, the held stack is removed, a new open stack opens, and one
LANE_UNBLOCKED ends a block (R130; log 27). The new stack takes the next id offered that no present stack holds (R119)
and a job slot and target by R120. That its target is read from the plan's slot as it then stands, in IDLE and in
FAULT entered from IDLE also after a JOB_LOAD of that slot, is the model's choice (log 28). -/
def Obligations.ClearPocketEmptiesLane : Prop :=
  (∀ (s : State) (tag lane scope : Byte), s.Ready .line →
    let u := s.frameTaken .line
    (s.limit ≤ lane.toNat ∨ 1 < scope.toNat →
      exec (.clearPocket .line tag lane scope) s = .next (u.reply .line tag .badArg [])) ∧
    (lane.toNat < s.limit → scope = 0 → s.heldStack? lane.toNat = none →
      exec (.clearPocket .line tag lane scope) s = .next (u.reply .line tag .nothing [])) ∧
    (lane.toNat < s.limit → scope = 0 → ∀ l ∈ s.lane? lane.toNat, ∀ k ∈ l.heldStack,
      ∃ t, exec (.clearPocket .line tag lane scope) s = .next t ∧ HeldRemoved s t lane.toNat l ∧
        OtherLanesKept s t lane.toNat ∧
        t = { u with
          kg := { s.kg with seps := t.kg.seps }
          pock := t.pock
          line := PortState.replied (PortState.appendAll u.line
            (k.clearedNoticeAt lane.toNat :: s.unblocked? l lane.toNat k.id)) s.trk.state tag .done []
          deliv := s.deliv.appendAll (k.clearedNoticeAt lane.toNat ::
            (l.deferredStack?.map fun d => d.offerNoticeAt lane.toNat s.pos.web).toList ++
              s.unblocked? l lane.toNat k.id) })) ∧
  (∀ (s : State) (tag lane : Byte), s.Ready .line → lane.toNat < s.limit →
    ∀ l ∈ s.lane? lane.toNat,
    let u := s.frameTaken .line
    (l.openStack = none → l.heldStack = none →
      exec (.clearPocket .line tag lane 1) s = .next (u.reply .line tag .nothing [])) ∧
    (∀ k ∈ l.openStack, ∃ t, exec (.clearPocket .line tag lane 1) s = .next t ∧ ∃ m ∈ t.lane? lane.toNat,
      let held := (l.heldStack.map fun h => h.clearedNoticeAt lane.toNat).toList
      let freed : List Notice := match l.heldStack with
        | some h => if l.overflow || l.closing then
            [⟨.laneUnblocked, none, some h.id, some lane.toNat, some s.pos.web, []⟩] else []
        | none => []
      t.OpensNew lane.toNat (s.nextPlan k).1 (s.nextPlan k).2 ∧
      (s.StackIdsDistinct →
        let others := (s.pock.lanes.eraseIdx lane.toNat).flatMap fun l => l.openStack.toList ++ l.heldStack.toList
        let ids := freeIds s.pock.nextId (others.map (·.id))
        m.openStack.map (·.id) = ids.head? ∧ some t.pock.nextId = ids.head?.map fun i => offeredId i 1) ∧
      m = { l with
        openStack := m.openStack, heldStack := none, closing := false, deferShort := false, deferUntracked := false
        overflow := if l.heldStack.isSome then false else l.overflow } ∧
      OtherLanesKept s t lane.toNat ∧
      t = { u with
        pock := t.pock
        line := (u.line.appendAll (k.clearedNoticeAt lane.toNat :: held ++ freed)).replied s.trk.state tag .done []
        deliv := s.deliv.appendAll (k.clearedNoticeAt lane.toNat :: held ++ freed) }))

/-- GRADE, at its grant: its arguments are checked, the row is looked up, and each masked lane takes the higher grade; on
a COMMITTED, CUT or MISSED row the lanes raised from below REJECT are late rejects, tallied, routed and reported; the
reply names the skipped lanes, the row's state and the late lanes (R80 to R82, R90 to R94, R175). -/
def Obligations.GradeMergedInTimeOrLate : Prop :=
  ∀ (s : State) (tag : Byte) (n : Word) (mask : Byte) (grades : List Byte),
    s.Granted .inspection tag (.grade n mask grades) →
    let u := s.portServed .inspection
    let bad := mask = 0 ∨ (∃ i < 8, mask.getLsbD i = true ∧ s.limit ≤ i) ∨ ∃ b ∈ grades, b = 0 ∨ 3 < b.toNat
    (bad → exec (.grade .inspection tag n mask grades) s = .next (u.reply .inspection tag .badArg [])) ∧
    (¬bad → s.lookup n = .gone → exec (.grade .inspection tag n mask grades) s = .next (State.reply
      { u with line := s.line.append ⟨.rowGone, some n, none, none, none, [1]⟩ } .inspection tag .rowGone [])) ∧
    (¬bad → s.lookup n = .notYet →
      exec (.grade .inspection tag n mask grades) s = .next (u.reply .inspection tag .unknownRow [])) ∧
    ∀ r, ¬bad → s.lookup n = .found r →
      let named := fun i => (gradeCodeFor mask grades i).isSome
      let late := r.newlyLate fun i => decide (gradeCodeFor mask grades i = some 3)
      let skipped := (List.range r.lanes.length).filter fun i =>
        named i && decide ((r.lanes[i]?).map (·.grade) = some .void)
      let rows := s.tab.rows.map fun y => if y.number = r.number then y.gradedOn mask grades else y
      exec (.grade .inspection tag n mask grades) s = .next (State.reply
        (State.lateReported { u with tab := { s.tab with rows := rows } } r late) .inspection tag .done
        [laneMask skipped, BitVec.ofNat 8 ([RowState.travelling, .committed, .cut, .missed].idxOf r.state),
          laneMask late])

/-- R112: TRIGGER_ROW answers with the last-triggered record and the level of ITRIG, or with NOTHING; a trigger event of a
present row writes the record, power-on empties it, and nothing else changes it. -/
def Obligations.LastTriggeredRowReported : Prop :=
  (∀ (s : State) (tag : Byte), s.Ready .inspection →
    let u := s.frameTaken .inspection
    (s.kg.lastTriggered = none →
      exec (.triggerRow .inspection tag) s = .next (u.reply .inspection tag .nothing [])) ∧
    ∀ d ∈ s.kg.lastTriggered, exec (.triggerRow .inspection tag) s = .next (u.reply .inspection tag .done
      (bytes32 d.1 ++ bytes32 d.2 ++ [if s.kg.itrig then 1 else 0]))) ∧
  (∀ (s : State) (n : Word) (rest : List TrackingEvent) (r : Row), s.EventFirst (.trigger n) rest → s.row? n = some r →
    ∃ t, exec .triggerEvent s = .next t ∧ t.kg.lastTriggered = some (n, r.trigger)) ∧
  (∀ (straps : Straps) (a b : Bool) (s : State), ∃ t, exec (.resetNReleased straps a b) s = .next t ∧
    t.kg.lastTriggered = none) ∧
  ∀ (i : Instr) (s : State), i ≠ .triggerEvent → (∀ straps a b, i ≠ .resetNReleased straps a b) →
    ∃ t, exec i s = .next t ∧ t.kg.lastTriggered = s.kg.lastTriggered

/-- ACCEPT takes a held stack in any offer state: COUNT_MISMATCH first where the counted quantity differs, then the removal
of R127, and the reply carries the count, the flags and the comparison (R143, R144). DECLINE is taken for an OFFERED
stack and answered with its new state, decline count and wait (R139, R142). An id of no present stack and the id of an
open stack are refused. That the stack which a deferred closure opens reads its target from the plan's slot as it then
stands, in IDLE and in FAULT entered from IDLE also after a JOB_LOAD of that slot, is the model's choice (log 28). -/
def Obligations.AcceptAndDeclineNameHeldStacks : Prop :=
  (∀ (s : State) (tag : Byte) (id : StackId) (counted : Option (BitVec 16)), s.Ready .delivery →
    let u := s.frameTaken .delivery
    ((∀ l ∈ s.pock.lanes, l.has id = false) →
      exec (.accept .delivery tag id counted) s = .next (u.reply .delivery tag .unknownStack [])) ∧
    ∀ (lane : Nat) (held : Bool) (k : Stack), s.stack? id = some (lane, held, k) →
      (held = false → exec (.accept .delivery tag id counted) s = .next (u.reply .delivery tag .notOffered [])) ∧
      (held = true → ∀ l ∈ s.lane? lane,
        let differs := counted.any fun q => decide (q.toNat ≠ k.count)
        let notice : Notice := ⟨.countMismatch, none, some k.id, some lane, some s.pos.web,
          [BitVec.ofNat 16 k.count, counted.getD 0]⟩
        ∃ t, exec (.accept .delivery tag id counted) s = .next t ∧ HeldRemoved s t lane l ∧ OtherLanesKept s t lane ∧
          t = { u with
            kg := { s.kg with seps := t.kg.seps }
            pock := t.pock
            line := s.line.appendAll ((if differs then [notice] else []) ++ s.unblocked? l lane k.id)
            deliv := PortState.replied (PortState.appendAll u.deliv
                ((l.deferredStack?.map fun d => d.offerNoticeAt lane s.pos.web).toList ++ s.unblocked? l lane k.id))
              s.trk.state tag .done
              (bytes16 (BitVec.ofNat 16 k.count) ++ [k.flagsByte, if differs then 1 else 0]) })) ∧
  (∀ (s : State) (tag : Byte) (id : StackId), s.Ready .delivery →
    let u := s.frameTaken .delivery
    ((∀ l ∈ s.pock.lanes, l.has id = false) →
      exec (.decline .delivery tag id) s = .next (u.reply .delivery tag .unknownStack [])) ∧
    ∀ (lane : Nat) (held : Bool) (k : Stack), s.stack? id = some (lane, held, k) →
      (held = false ∨ k.state ≠ .offered →
        exec (.decline .delivery tag id) s = .next (u.reply .delivery tag .notOffered [])) ∧
      (held = true → k.state = .offered →
        let d := k.afterDecline
        let strands := decide (5 ≤ k.declines)
        exec (.decline .delivery tag id) s = .next { u with
          pock := { s.pock with lanes := s.pock.lanes.modify lane fun l => { l with heldStack := some d } }
          line := if strands then s.line.append (k.strandedNoticeAt lane s.pos.web) else s.line
          deliv := PortState.replied
            (if strands then u.deliv.append (k.strandedNoticeAt lane s.pos.web) else u.deliv) s.trk.state tag .done
            ([if strands then 0 else 1, if strands then 3 else 2, BitVec.ofNat 8 (k.declines + 1)] ++
              bytes16 (BitVec.ofNat 16 (d.remaining.getD 0))) }))

/-- R146: SET_OFFER_WINDOW stores the number of cuts, brought into 8 to 255, and answers with the stored setting; no
stack changes, and the setting acts at the next offer. -/
def Obligations.OfferWindowStoredInRange : Prop :=
  (∀ (s : State) (tag : Byte) (cuts : BitVec 16), s.Ready .delivery →
    let u := s.frameTaken .delivery
    (8 ≤ cuts.toNat → cuts.toNat ≤ 255 → exec (.setOfferWindow .delivery tag cuts) s = .next (State.reply
      { u with offerSetting := cuts.toNat } .delivery tag .done [BitVec.ofNat 8 cuts.toNat])) ∧
    (cuts.toNat < 8 → exec (.setOfferWindow .delivery tag cuts) s = .next (State.reply
      { u with offerSetting := 8 } .delivery tag .doneClamped [8])) ∧
    (255 < cuts.toNat → exec (.setOfferWindow .delivery tag cuts) s = .next (State.reply
      { u with offerSetting := 255 } .delivery tag .doneClamped [255]))) ∧
  (∀ (s : State) (lane : Nat) (k : Stack), s.inReset = false → s.heldStack? lane = some k → k.state = .backoff →
    k.remaining = some 0 → ∃ t, exec (.backoffExpiry lane) s = .next t ∧
      ∀ h ∈ t.heldStack? lane, h.remaining = some s.offerSetting) ∧
  ∀ (s : State) (lane : Nat) (k : Stack), ∀ h ∈ (s.holdStack lane k).heldStack? lane,
    h.remaining = some s.offerSetting

/-- Invariants of the ports, the slots and the tracker: sixteen notices at most in each queue, four range requests, and a
port-streak count of at most eight (R74, R149, R166); each port's request and reply slot are never both full and agree with
its exchange (R161, R173); the slots hold fields in range and what names a slot names a VALID one (R1, R5 to R10); and while
a slot is armed Rm keeps to Rn ± (Rn>>2) and O to O_sync ± (Rn>>4) (R22, R31). -/
def Obligations.StepKeepsQueuesBounded : Prop :=
  (∀ s t : State, s.QueuesBounded → step s = .next t → t.QueuesBounded) ∧
  (∀ s t : State, s.PortsSound → step s = .next t → t.PortsSound) ∧
  (∀ s t : State, s.JobsInRange → step s = .next t → t.JobsInRange) ∧
  ∀ s t : State, s.JobsInRange → s.PlansSound → step s = .next t →
    t.PlansSound ∧ (s.TrackerInRange → t.TrackerInRange)

/-- Invariants of the Row Table: the row numbers are consecutive up to the next row number, and the table holds at most 512
records (R57); the rows stand in the order of their states, with at most one COMMITTED, as long as a row commits only when
it is the oldest TRAVELLING one and none is COMMITTED (R60); and that holds because a new row's commit position lies past the
missed-cut deadline of the row before it, by a sixteenth of Rn at least (spec/02, "Why at most one row is committed"). -/
def Obligations.StepKeepsRowsNumbered : Prop :=
  (∀ s t : State, s.RowsNumbered → step s = .next t → t.RowsNumbered) ∧
  (∀ s t : State, s.RowsNumbered → s.RowsInStateOrder → step s = .next t →
    (s.pending.head? = some .commit → ∀ n, s.tau.events.head? = some (.commit n) → ∀ r ∈ s.row? n,
      r.state = .travelling → s.trk.state ≠ .fault →
      s.committedRow? = none ∧ s.tab.rows.find? (fun y => decide (y.state = .travelling)) = some r) →
    t.RowsInStateOrder) ∧
  ∀ (s : State) (q p : Row) (m : SlotNumber) (origin : Origin) (pm offset oi : Word) (rn rm wc : Nat),
    q.BornAs s m origin pm offset oi rm → s.keptRows.getLast? = some p →
    ¬((p.state = .cut ∨ p.state = .missed) ∧ (2 : Int) ^ 30 ≤ wdiff s.pos.frontier p.arrival) →
    within 64 1048575 rn → within (rn - rn / 4) (rn + rn / 4) rm → within 1 (rn / 4) (s.job m).lead →
    within 1 (rn / 16) wc →
    ((rn / 16 : Nat) : Int) ≤ wdiff q.commit (p.arrival + BitVec.ofNat 32 wc)

/-- Invariant: a FUNCTIONAL gate stands at POCKET only for a lane that a COMMITTED row sends to its pocket, and in FAULT
none does (R100), together with the rest of the lines of absent lanes. -/
def Obligations.StepKeepsGatesLawful : Prop :=
  ∀ s t : State, s.AbsentLinesAtRest → s.GatesLawful → step s = .next t → t.GatesLawful

/-- R99: the gate and separator lines of lanes at or beyond the lane limit stay FUNCTIONAL, at DIVERT and deasserted;
they are so after every release of RESET_N, and the line requests that name such a lane are refused with BAD_ARG. -/
def Obligations.AbsentLanesStayAtRest : Prop :=
  (∀ s t : State, s.pock.lanes.length = s.limit → s.AbsentLinesAtRest → step s = .next t →
    t.pock.lanes.length = t.limit ∧ t.AbsentLinesAtRest) ∧
  (∀ (straps : Straps) (a b : Bool) (s : State), ∃ t, exec (.resetNReleased straps a b) s = .next t ∧
    t.pock.lanes.length = t.limit ∧ t.AbsentLinesAtRest) ∧
  ∀ (s : State) (tag line lane mode : Byte), s.limit ≤ lane.toNat → s.Ready .line →
    let refused := (s.frameTaken .line).reply .line tag .badArg []
    exec (.lineMode .line tag line lane mode) s = .next refused ∧
      exec (.lineSet .line tag line lane) s = .next refused ∧
      exec (.lineClear .line tag line lane) s = .next refused

/-- What every step keeps of a row record that stays in the table: its birth, the direction of its state, its grades but for an
OVERRULE step, and what was written once: the cut error, the dispositions, reasons and stack ids, and the flags (R58, R59,
R60, R79, R89, R91). Invariant: the parts of each record are present when R59 says so, and the pending count of a lane is the
number of its COMMITTED labels for the pocket (R59, R117, R128). -/
def Obligations.StepKeepsRowHistory : Prop :=
  (∀ s t : State, s.RowsNumbered → step s = .next t →
    (∀ straps a b, s.pending.head? ≠ some (.resetNReleased straps a b)) →
    ∀ r ∈ s.tab.rows, ∀ q ∈ t.tab.rows, q.number = r.number → r.MayBecome q ∧
      (s.pending.head? ≠ some .rangeStep → ∀ i : Fin r.lanes.length, ∀ d ∈ q.lanes[i.val]?,
        r.lanes[i].grade.severity ≤ d.grade.severity)) ∧
  ∀ s t : State, s.RowsNumbered → s.RowsInStateOrder → s.RecordsSound → step s = .next t → t.RecordsSound

/-- Invariants of the stacks and the lanes: no suspect list holds a row twice or more than eight rows (R122); with at most six
lanes, no two present stacks share an id and no id is 0, and an opening takes the next id offered that no present stack holds
(R119); an open stack has fewer labels than its target, and a held one at most its target (R117); and, but for CLEAR_TALLIES
and the power-on reset, stacked + diverted + manual of a lane rises by one for each row with that lane active that a step
takes from COMMITTED to CUT or MISSED, and else not at all (R133). -/
def Obligations.StepKeepsStacksSound : Prop :=
  (∀ s t : State, s.SuspectsSound → step s = .next t → t.SuspectsSound) ∧
  (∀ s t : State, s.StackIdsDistinct → step s = .next t → t.StackIdsDistinct) ∧
  (∀ (s : State) (lane : Nat) (slot : SlotNumber) (target : Nat), s.StackIdsDistinct → lane < s.pock.lanes.length →
    let t := s.openNew lane slot target
    let ids := freeIds s.pock.nextId s.presentIds
    (t.openStack? lane).map (·.id) = ids.head? ∧ some t.pock.nextId = ids.head?.map fun i => offeredId i 1) ∧
  (∀ s t : State, s.JobsInRange → s.PlansSound → s.StacksCounted → step s = .next t → t.StacksCounted) ∧
  ∀ s t : State, s.RowsNumbered → s.RowsInStateOrder → s.RecordsSound → step s = .next t →
    (∀ straps a b, s.pending.head? ≠ some (.resetNReleased straps a b)) →
    (∀ p tag mask, s.pending.head? ≠ some (.clearTallies p tag mask)) →
    (∀ p bits, s.pending.head? = some (.selectRise p bits) → frameByte (clockedBytes bits) 0 ≠ 25) →
    ∀ i : Fin s.pock.lanes.length, ∀ m ∈ t.lane? i,
      let l := s.pock.lanes[i]
      m.stacked + m.diverted + m.manual = l.stacked + l.diverted + l.manual +
        BitVec.ofNat 32 (s.tab.rows.countP fun r =>
          decide (r.state = .committed) && (r.lanes[i.val]?).any (fun c => decide (c.grade ≠ .void)) &&
            (t.row? r.number).any fun q => decide (q.state = .cut ∨ q.state = .missed))

/-- The state after reset meets every invariant stated here. -/
def Obligations.ResetMeetsInvariants : Prop :=
  State.reset.QueuesBounded ∧ State.reset.PortsSound ∧ State.reset.JobsInRange ∧ State.reset.PlansSound ∧
    State.reset.TrackerInRange ∧ State.reset.RowsNumbered ∧ State.reset.RowsInStateOrder ∧ State.reset.RecordsSound ∧
    State.reset.GatesLawful ∧ State.reset.AbsentLinesAtRest ∧ State.reset.SuspectsSound ∧
    State.reset.StackIdsDistinct ∧ State.reset.StacksCounted
end

