-- ==== Sys2Proof/Laws/State.lean ====
section
/-! SUPPORT. One lemma for each field and each shared operation: which fields an operation leaves as they were, and what
it does to the others. -/

namespace Sys2Proof.Machine

/-! ### Ports: placing notices and replies touches the ports only -/

@[simp] theorem State.setPort_inReset (s : State) (p : Port) (q : PortState) :
    (s.setPort p q).inReset = s.inReset := by cases p <;> rfl

@[simp] theorem State.setPort_strapSafePin (s : State) (p : Port) (q : PortState) :
    (s.setPort p q).strapSafePin = s.strapSafePin := by cases p <;> rfl

@[simp] theorem State.setPort_straps (s : State) (p : Port) (q : PortState) :
    (s.setPort p q).straps = s.straps := by cases p <;> rfl

@[simp] theorem State.setPort_pos (s : State) (p : Port) (q : PortState) :
    (s.setPort p q).pos = s.pos := by cases p <;> rfl

@[simp] theorem State.setPort_trk (s : State) (p : Port) (q : PortState) :
    (s.setPort p q).trk = s.trk := by cases p <;> rfl

@[simp] theorem State.setPort_jobs (s : State) (p : Port) (q : PortState) :
    (s.setPort p q).jobs = s.jobs := by cases p <;> rfl

@[simp] theorem State.setPort_tab (s : State) (p : Port) (q : PortState) :
    (s.setPort p q).tab = s.tab := by cases p <;> rfl

@[simp] theorem State.setPort_tau (s : State) (p : Port) (q : PortState) :
    (s.setPort p q).tau = s.tau := by cases p <;> rfl

@[simp] theorem State.setPort_kg (s : State) (p : Port) (q : PortState) :
    (s.setPort p q).kg = s.kg := by cases p <;> rfl

@[simp] theorem State.setPort_pock (s : State) (p : Port) (q : PortState) :
    (s.setPort p q).pock = s.pock := by cases p <;> rfl

@[simp] theorem State.setPort_offerSetting (s : State) (p : Port) (q : PortState) :
    (s.setPort p q).offerSetting = s.offerSetting := by cases p <;> rfl

@[simp] theorem State.setPort_rng (s : State) (p : Port) (q : PortState) :
    (s.setPort p q).rng = s.rng := by cases p <;> rfl

@[simp] theorem State.setPort_partBuffer (s : State) (p : Port) (q : PortState) :
    (s.setPort p q).partBuffer = s.partBuffer := by cases p <;> rfl

@[simp] theorem State.setPort_pending (s : State) (p : Port) (q : PortState) :
    (s.setPort p q).pending = s.pending := by cases p <;> rfl

@[simp] theorem State.modifyPort_inReset (s : State) (p : Port) (f : PortState → PortState) :
    (s.modifyPort p f).inReset = s.inReset := by cases p <;> rfl

@[simp] theorem State.modifyPort_strapSafePin (s : State) (p : Port) (f : PortState → PortState) :
    (s.modifyPort p f).strapSafePin = s.strapSafePin := by cases p <;> rfl

@[simp] theorem State.modifyPort_straps (s : State) (p : Port) (f : PortState → PortState) :
    (s.modifyPort p f).straps = s.straps := by cases p <;> rfl

@[simp] theorem State.modifyPort_pos (s : State) (p : Port) (f : PortState → PortState) :
    (s.modifyPort p f).pos = s.pos := by cases p <;> rfl

@[simp] theorem State.modifyPort_trk (s : State) (p : Port) (f : PortState → PortState) :
    (s.modifyPort p f).trk = s.trk := by cases p <;> rfl

@[simp] theorem State.modifyPort_jobs (s : State) (p : Port) (f : PortState → PortState) :
    (s.modifyPort p f).jobs = s.jobs := by cases p <;> rfl

@[simp] theorem State.modifyPort_tab (s : State) (p : Port) (f : PortState → PortState) :
    (s.modifyPort p f).tab = s.tab := by cases p <;> rfl

@[simp] theorem State.modifyPort_tau (s : State) (p : Port) (f : PortState → PortState) :
    (s.modifyPort p f).tau = s.tau := by cases p <;> rfl

@[simp] theorem State.modifyPort_kg (s : State) (p : Port) (f : PortState → PortState) :
    (s.modifyPort p f).kg = s.kg := by cases p <;> rfl

@[simp] theorem State.modifyPort_pock (s : State) (p : Port) (f : PortState → PortState) :
    (s.modifyPort p f).pock = s.pock := by cases p <;> rfl

@[simp] theorem State.modifyPort_offerSetting (s : State) (p : Port) (f : PortState → PortState) :
    (s.modifyPort p f).offerSetting = s.offerSetting := by cases p <;> rfl

@[simp] theorem State.modifyPort_rng (s : State) (p : Port) (f : PortState → PortState) :
    (s.modifyPort p f).rng = s.rng := by cases p <;> rfl

@[simp] theorem State.modifyPort_partBuffer (s : State) (p : Port) (f : PortState → PortState) :
    (s.modifyPort p f).partBuffer = s.partBuffer := by cases p <;> rfl

@[simp] theorem State.modifyPort_pending (s : State) (p : Port) (f : PortState → PortState) :
    (s.modifyPort p f).pending = s.pending := by cases p <;> rfl

@[simp] theorem State.place_inReset (s : State) (p : Port) (n : Notice) :
    (s.place p n).inReset = s.inReset := by cases p <;> rfl

@[simp] theorem State.place_strapSafePin (s : State) (p : Port) (n : Notice) :
    (s.place p n).strapSafePin = s.strapSafePin := by cases p <;> rfl

@[simp] theorem State.place_straps (s : State) (p : Port) (n : Notice) :
    (s.place p n).straps = s.straps := by cases p <;> rfl

@[simp] theorem State.place_pos (s : State) (p : Port) (n : Notice) :
    (s.place p n).pos = s.pos := by cases p <;> rfl

@[simp] theorem State.place_trk (s : State) (p : Port) (n : Notice) :
    (s.place p n).trk = s.trk := by cases p <;> rfl

@[simp] theorem State.place_jobs (s : State) (p : Port) (n : Notice) :
    (s.place p n).jobs = s.jobs := by cases p <;> rfl

@[simp] theorem State.place_tab (s : State) (p : Port) (n : Notice) :
    (s.place p n).tab = s.tab := by cases p <;> rfl

@[simp] theorem State.place_tau (s : State) (p : Port) (n : Notice) :
    (s.place p n).tau = s.tau := by cases p <;> rfl

@[simp] theorem State.place_kg (s : State) (p : Port) (n : Notice) :
    (s.place p n).kg = s.kg := by cases p <;> rfl

@[simp] theorem State.place_pock (s : State) (p : Port) (n : Notice) :
    (s.place p n).pock = s.pock := by cases p <;> rfl

@[simp] theorem State.place_offerSetting (s : State) (p : Port) (n : Notice) :
    (s.place p n).offerSetting = s.offerSetting := by cases p <;> rfl

@[simp] theorem State.place_rng (s : State) (p : Port) (n : Notice) :
    (s.place p n).rng = s.rng := by cases p <;> rfl

@[simp] theorem State.place_partBuffer (s : State) (p : Port) (n : Notice) :
    (s.place p n).partBuffer = s.partBuffer := by cases p <;> rfl

@[simp] theorem State.place_pending (s : State) (p : Port) (n : Notice) :
    (s.place p n).pending = s.pending := by cases p <;> rfl

@[simp] theorem State.port_setPort (s : State) (p p' : Port) (q : PortState) :
    (s.setPort p q).port p' = if p' = p then q else s.port p' := by cases p <;> cases p' <;> rfl

@[simp] theorem State.port_modifyPort (s : State) (p p' : Port) (f : PortState → PortState) :
    (s.modifyPort p f).port p' = if p' = p then f (s.port p) else s.port p' := by cases p <;> cases p' <;> rfl

/-- Everything that raising a notice does (R166, R172). -/
theorem State.raise_eq (s : State) (n : Notice) :
    s.raise n = { s with
      line := if Port.line ∈ n.kind.ports then s.line.append n else s.line
      insp := if Port.inspection ∈ n.kind.ports then s.insp.append n else s.insp
      deliv := if Port.delivery ∈ n.kind.ports then s.deliv.append n else s.deliv } := by
  obtain ⟨k, row, stack, lane, position, values⟩ := n
  cases k <;> rfl

@[simp] theorem State.raise_inReset (s : State) (n : Notice) :
    (s.raise n).inReset = s.inReset := by rw [State.raise_eq]

@[simp] theorem State.raise_strapSafePin (s : State) (n : Notice) :
    (s.raise n).strapSafePin = s.strapSafePin := by rw [State.raise_eq]

@[simp] theorem State.raise_straps (s : State) (n : Notice) :
    (s.raise n).straps = s.straps := by rw [State.raise_eq]

@[simp] theorem State.raise_pos (s : State) (n : Notice) :
    (s.raise n).pos = s.pos := by rw [State.raise_eq]

@[simp] theorem State.raise_trk (s : State) (n : Notice) :
    (s.raise n).trk = s.trk := by rw [State.raise_eq]

@[simp] theorem State.raise_jobs (s : State) (n : Notice) :
    (s.raise n).jobs = s.jobs := by rw [State.raise_eq]

@[simp] theorem State.raise_tab (s : State) (n : Notice) :
    (s.raise n).tab = s.tab := by rw [State.raise_eq]

@[simp] theorem State.raise_tau (s : State) (n : Notice) :
    (s.raise n).tau = s.tau := by rw [State.raise_eq]

@[simp] theorem State.raise_kg (s : State) (n : Notice) :
    (s.raise n).kg = s.kg := by rw [State.raise_eq]

@[simp] theorem State.raise_pock (s : State) (n : Notice) :
    (s.raise n).pock = s.pock := by rw [State.raise_eq]

@[simp] theorem State.raise_offerSetting (s : State) (n : Notice) :
    (s.raise n).offerSetting = s.offerSetting := by rw [State.raise_eq]

@[simp] theorem State.raise_rng (s : State) (n : Notice) :
    (s.raise n).rng = s.rng := by rw [State.raise_eq]

@[simp] theorem State.raise_partBuffer (s : State) (n : Notice) :
    (s.raise n).partBuffer = s.partBuffer := by rw [State.raise_eq]

@[simp] theorem State.raise_pending (s : State) (n : Notice) :
    (s.raise n).pending = s.pending := by rw [State.raise_eq]

@[simp] theorem State.answer_inReset (s : State) (p : Port) (tag : Byte) (c : ReplyCode) (l : List Byte) :
    (s.answer p tag c l).inReset = s.inReset := by cases p <;> rfl

@[simp] theorem State.answer_strapSafePin (s : State) (p : Port) (tag : Byte) (c : ReplyCode) (l : List Byte) :
    (s.answer p tag c l).strapSafePin = s.strapSafePin := by cases p <;> rfl

@[simp] theorem State.answer_straps (s : State) (p : Port) (tag : Byte) (c : ReplyCode) (l : List Byte) :
    (s.answer p tag c l).straps = s.straps := by cases p <;> rfl

@[simp] theorem State.answer_pos (s : State) (p : Port) (tag : Byte) (c : ReplyCode) (l : List Byte) :
    (s.answer p tag c l).pos = s.pos := by cases p <;> rfl

@[simp] theorem State.answer_trk (s : State) (p : Port) (tag : Byte) (c : ReplyCode) (l : List Byte) :
    (s.answer p tag c l).trk = s.trk := by cases p <;> rfl

@[simp] theorem State.answer_jobs (s : State) (p : Port) (tag : Byte) (c : ReplyCode) (l : List Byte) :
    (s.answer p tag c l).jobs = s.jobs := by cases p <;> rfl

@[simp] theorem State.answer_tab (s : State) (p : Port) (tag : Byte) (c : ReplyCode) (l : List Byte) :
    (s.answer p tag c l).tab = s.tab := by cases p <;> rfl

@[simp] theorem State.answer_tau (s : State) (p : Port) (tag : Byte) (c : ReplyCode) (l : List Byte) :
    (s.answer p tag c l).tau = s.tau := by cases p <;> rfl

@[simp] theorem State.answer_kg (s : State) (p : Port) (tag : Byte) (c : ReplyCode) (l : List Byte) :
    (s.answer p tag c l).kg = s.kg := by cases p <;> rfl

@[simp] theorem State.answer_pock (s : State) (p : Port) (tag : Byte) (c : ReplyCode) (l : List Byte) :
    (s.answer p tag c l).pock = s.pock := by cases p <;> rfl

@[simp] theorem State.answer_offerSetting (s : State) (p : Port) (tag : Byte) (c : ReplyCode) (l : List Byte) :
    (s.answer p tag c l).offerSetting = s.offerSetting := by cases p <;> rfl

@[simp] theorem State.answer_rng (s : State) (p : Port) (tag : Byte) (c : ReplyCode) (l : List Byte) :
    (s.answer p tag c l).rng = s.rng := by cases p <;> rfl

@[simp] theorem State.answer_partBuffer (s : State) (p : Port) (tag : Byte) (c : ReplyCode) (l : List Byte) :
    (s.answer p tag c l).partBuffer = s.partBuffer := by cases p <;> rfl

@[simp] theorem State.answer_pending (s : State) (p : Port) (tag : Byte) (c : ReplyCode) (l : List Byte) :
    (s.answer p tag c l).pending = s.pending := by cases p <;> rfl

@[simp] theorem State.rangeDone_inReset (s : State) (e : RangeEntry) (n : Nat) :
    (s.rangeDone e n).inReset = s.inReset := State.place_inReset _ _ _

@[simp] theorem State.rangeDone_strapSafePin (s : State) (e : RangeEntry) (n : Nat) :
    (s.rangeDone e n).strapSafePin = s.strapSafePin := State.place_strapSafePin _ _ _

@[simp] theorem State.rangeDone_straps (s : State) (e : RangeEntry) (n : Nat) :
    (s.rangeDone e n).straps = s.straps := State.place_straps _ _ _

@[simp] theorem State.rangeDone_pos (s : State) (e : RangeEntry) (n : Nat) :
    (s.rangeDone e n).pos = s.pos := State.place_pos _ _ _

@[simp] theorem State.rangeDone_trk (s : State) (e : RangeEntry) (n : Nat) :
    (s.rangeDone e n).trk = s.trk := State.place_trk _ _ _

@[simp] theorem State.rangeDone_jobs (s : State) (e : RangeEntry) (n : Nat) :
    (s.rangeDone e n).jobs = s.jobs := State.place_jobs _ _ _

@[simp] theorem State.rangeDone_tab (s : State) (e : RangeEntry) (n : Nat) :
    (s.rangeDone e n).tab = s.tab := State.place_tab _ _ _

@[simp] theorem State.rangeDone_tau (s : State) (e : RangeEntry) (n : Nat) :
    (s.rangeDone e n).tau = s.tau := State.place_tau _ _ _

@[simp] theorem State.rangeDone_kg (s : State) (e : RangeEntry) (n : Nat) :
    (s.rangeDone e n).kg = s.kg := State.place_kg _ _ _

@[simp] theorem State.rangeDone_pock (s : State) (e : RangeEntry) (n : Nat) :
    (s.rangeDone e n).pock = s.pock := State.place_pock _ _ _

@[simp] theorem State.rangeDone_offerSetting (s : State) (e : RangeEntry) (n : Nat) :
    (s.rangeDone e n).offerSetting = s.offerSetting := State.place_offerSetting _ _ _

@[simp] theorem State.rangeDone_rng (s : State) (e : RangeEntry) (n : Nat) :
    (s.rangeDone e n).rng = s.rng := State.place_rng _ _ _

@[simp] theorem State.rangeDone_partBuffer (s : State) (e : RangeEntry) (n : Nat) :
    (s.rangeDone e n).partBuffer = s.partBuffer := State.place_partBuffer _ _ _

@[simp] theorem State.rangeDone_pending (s : State) (e : RangeEntry) (n : Nat) :
    (s.rangeDone e n).pending = s.pending := State.place_pending _ _ _

/-! ### The fault record, deadlines, lines and records -/

@[simp] theorem State.offerFault_inReset (s : State) (k : FaultKind) (r : Option Word) (x : Word) :
    (s.offerFault k r x).inReset = s.inReset := rfl

@[simp] theorem State.offerFault_strapSafePin (s : State) (k : FaultKind) (r : Option Word) (x : Word) :
    (s.offerFault k r x).strapSafePin = s.strapSafePin := rfl

@[simp] theorem State.offerFault_straps (s : State) (k : FaultKind) (r : Option Word) (x : Word) :
    (s.offerFault k r x).straps = s.straps := rfl

@[simp] theorem State.offerFault_pos (s : State) (k : FaultKind) (r : Option Word) (x : Word) :
    (s.offerFault k r x).pos = s.pos := rfl

@[simp] theorem State.offerFault_jobs (s : State) (k : FaultKind) (r : Option Word) (x : Word) :
    (s.offerFault k r x).jobs = s.jobs := rfl

@[simp] theorem State.offerFault_tab (s : State) (k : FaultKind) (r : Option Word) (x : Word) :
    (s.offerFault k r x).tab = s.tab := rfl

@[simp] theorem State.offerFault_tau (s : State) (k : FaultKind) (r : Option Word) (x : Word) :
    (s.offerFault k r x).tau = s.tau := rfl

@[simp] theorem State.offerFault_kg (s : State) (k : FaultKind) (r : Option Word) (x : Word) :
    (s.offerFault k r x).kg = s.kg := rfl

@[simp] theorem State.offerFault_pock (s : State) (k : FaultKind) (r : Option Word) (x : Word) :
    (s.offerFault k r x).pock = s.pock := rfl

@[simp] theorem State.offerFault_offerSetting (s : State) (k : FaultKind) (r : Option Word) (x : Word) :
    (s.offerFault k r x).offerSetting = s.offerSetting := rfl

@[simp] theorem State.offerFault_rng (s : State) (k : FaultKind) (r : Option Word) (x : Word) :
    (s.offerFault k r x).rng = s.rng := rfl

@[simp] theorem State.offerFault_line (s : State) (k : FaultKind) (r : Option Word) (x : Word) :
    (s.offerFault k r x).line = s.line := rfl

@[simp] theorem State.offerFault_insp (s : State) (k : FaultKind) (r : Option Word) (x : Word) :
    (s.offerFault k r x).insp = s.insp := rfl

@[simp] theorem State.offerFault_deliv (s : State) (k : FaultKind) (r : Option Word) (x : Word) :
    (s.offerFault k r x).deliv = s.deliv := rfl

@[simp] theorem State.offerFault_partBuffer (s : State) (k : FaultKind) (r : Option Word) (x : Word) :
    (s.offerFault k r x).partBuffer = s.partBuffer := rfl

@[simp] theorem State.offerFault_pending (s : State) (k : FaultKind) (r : Option Word) (x : Word) :
    (s.offerFault k r x).pending = s.pending := rfl

@[simp] theorem State.enterDeadline_inReset (s : State) (d : Deadline) :
    (s.enterDeadline d).inReset = s.inReset := by unfold State.enterDeadline; split <;> rfl

@[simp] theorem State.enterDeadline_strapSafePin (s : State) (d : Deadline) :
    (s.enterDeadline d).strapSafePin = s.strapSafePin := by unfold State.enterDeadline; split <;> rfl

@[simp] theorem State.enterDeadline_straps (s : State) (d : Deadline) :
    (s.enterDeadline d).straps = s.straps := by unfold State.enterDeadline; split <;> rfl

@[simp] theorem State.enterDeadline_trk (s : State) (d : Deadline) :
    (s.enterDeadline d).trk = s.trk := by unfold State.enterDeadline; split <;> rfl

@[simp] theorem State.enterDeadline_jobs (s : State) (d : Deadline) :
    (s.enterDeadline d).jobs = s.jobs := by unfold State.enterDeadline; split <;> rfl

@[simp] theorem State.enterDeadline_tab (s : State) (d : Deadline) :
    (s.enterDeadline d).tab = s.tab := by unfold State.enterDeadline; split <;> rfl

@[simp] theorem State.enterDeadline_tau (s : State) (d : Deadline) :
    (s.enterDeadline d).tau = s.tau := by unfold State.enterDeadline; split <;> rfl

@[simp] theorem State.enterDeadline_kg (s : State) (d : Deadline) :
    (s.enterDeadline d).kg = s.kg := by unfold State.enterDeadline; split <;> rfl

@[simp] theorem State.enterDeadline_pock (s : State) (d : Deadline) :
    (s.enterDeadline d).pock = s.pock := by unfold State.enterDeadline; split <;> rfl

@[simp] theorem State.enterDeadline_offerSetting (s : State) (d : Deadline) :
    (s.enterDeadline d).offerSetting = s.offerSetting := by unfold State.enterDeadline; split <;> rfl

@[simp] theorem State.enterDeadline_rng (s : State) (d : Deadline) :
    (s.enterDeadline d).rng = s.rng := by unfold State.enterDeadline; split <;> rfl

@[simp] theorem State.enterDeadline_line (s : State) (d : Deadline) :
    (s.enterDeadline d).line = s.line := by unfold State.enterDeadline; split <;> rfl

@[simp] theorem State.enterDeadline_insp (s : State) (d : Deadline) :
    (s.enterDeadline d).insp = s.insp := by unfold State.enterDeadline; split <;> rfl

@[simp] theorem State.enterDeadline_deliv (s : State) (d : Deadline) :
    (s.enterDeadline d).deliv = s.deliv := by unfold State.enterDeadline; split <;> rfl

@[simp] theorem State.enterDeadline_partBuffer (s : State) (d : Deadline) :
    (s.enterDeadline d).partBuffer = s.partBuffer := by unfold State.enterDeadline; split <;> rfl

@[simp] theorem State.enterDeadline_pending (s : State) (d : Deadline) :
    (s.enterDeadline d).pending = s.pending := by unfold State.enterDeadline; split <;> rfl

@[simp] theorem State.dropDeadlines_inReset (s : State) (p : DeadlineKind → Bool) :
    (s.dropDeadlines p).inReset = s.inReset := rfl

@[simp] theorem State.dropDeadlines_strapSafePin (s : State) (p : DeadlineKind → Bool) :
    (s.dropDeadlines p).strapSafePin = s.strapSafePin := rfl

@[simp] theorem State.dropDeadlines_straps (s : State) (p : DeadlineKind → Bool) :
    (s.dropDeadlines p).straps = s.straps := rfl

@[simp] theorem State.dropDeadlines_trk (s : State) (p : DeadlineKind → Bool) :
    (s.dropDeadlines p).trk = s.trk := rfl

@[simp] theorem State.dropDeadlines_jobs (s : State) (p : DeadlineKind → Bool) :
    (s.dropDeadlines p).jobs = s.jobs := rfl

@[simp] theorem State.dropDeadlines_tab (s : State) (p : DeadlineKind → Bool) :
    (s.dropDeadlines p).tab = s.tab := rfl

@[simp] theorem State.dropDeadlines_tau (s : State) (p : DeadlineKind → Bool) :
    (s.dropDeadlines p).tau = s.tau := rfl

@[simp] theorem State.dropDeadlines_kg (s : State) (p : DeadlineKind → Bool) :
    (s.dropDeadlines p).kg = s.kg := rfl

@[simp] theorem State.dropDeadlines_pock (s : State) (p : DeadlineKind → Bool) :
    (s.dropDeadlines p).pock = s.pock := rfl

@[simp] theorem State.dropDeadlines_offerSetting (s : State) (p : DeadlineKind → Bool) :
    (s.dropDeadlines p).offerSetting = s.offerSetting := rfl

@[simp] theorem State.dropDeadlines_rng (s : State) (p : DeadlineKind → Bool) :
    (s.dropDeadlines p).rng = s.rng := rfl

@[simp] theorem State.dropDeadlines_line (s : State) (p : DeadlineKind → Bool) :
    (s.dropDeadlines p).line = s.line := rfl

@[simp] theorem State.dropDeadlines_insp (s : State) (p : DeadlineKind → Bool) :
    (s.dropDeadlines p).insp = s.insp := rfl

@[simp] theorem State.dropDeadlines_deliv (s : State) (p : DeadlineKind → Bool) :
    (s.dropDeadlines p).deliv = s.deliv := rfl

@[simp] theorem State.dropDeadlines_partBuffer (s : State) (p : DeadlineKind → Bool) :
    (s.dropDeadlines p).partBuffer = s.partBuffer := rfl

@[simp] theorem State.dropDeadlines_pending (s : State) (p : DeadlineKind → Bool) :
    (s.dropDeadlines p).pending = s.pending := rfl

@[simp] theorem State.dropFlywheel_inReset (s : State) :
    (s.dropFlywheel).inReset = s.inReset := rfl

@[simp] theorem State.dropFlywheel_strapSafePin (s : State) :
    (s.dropFlywheel).strapSafePin = s.strapSafePin := rfl

@[simp] theorem State.dropFlywheel_straps (s : State) :
    (s.dropFlywheel).straps = s.straps := rfl

@[simp] theorem State.dropFlywheel_trk (s : State) :
    (s.dropFlywheel).trk = s.trk := rfl

@[simp] theorem State.dropFlywheel_jobs (s : State) :
    (s.dropFlywheel).jobs = s.jobs := rfl

@[simp] theorem State.dropFlywheel_tab (s : State) :
    (s.dropFlywheel).tab = s.tab := rfl

@[simp] theorem State.dropFlywheel_tau (s : State) :
    (s.dropFlywheel).tau = s.tau := rfl

@[simp] theorem State.dropFlywheel_kg (s : State) :
    (s.dropFlywheel).kg = s.kg := rfl

@[simp] theorem State.dropFlywheel_pock (s : State) :
    (s.dropFlywheel).pock = s.pock := rfl

@[simp] theorem State.dropFlywheel_offerSetting (s : State) :
    (s.dropFlywheel).offerSetting = s.offerSetting := rfl

@[simp] theorem State.dropFlywheel_rng (s : State) :
    (s.dropFlywheel).rng = s.rng := rfl

@[simp] theorem State.dropFlywheel_line (s : State) :
    (s.dropFlywheel).line = s.line := rfl

@[simp] theorem State.dropFlywheel_insp (s : State) :
    (s.dropFlywheel).insp = s.insp := rfl

@[simp] theorem State.dropFlywheel_deliv (s : State) :
    (s.dropFlywheel).deliv = s.deliv := rfl

@[simp] theorem State.dropFlywheel_partBuffer (s : State) :
    (s.dropFlywheel).partBuffer = s.partBuffer := rfl

@[simp] theorem State.dropFlywheel_pending (s : State) :
    (s.dropFlywheel).pending = s.pending := rfl

@[simp] theorem State.enterFlywheel_inReset (s : State) (x : Word) :
    (s.enterFlywheel x).inReset = s.inReset := by unfold State.enterFlywheel; simp

@[simp] theorem State.enterFlywheel_strapSafePin (s : State) (x : Word) :
    (s.enterFlywheel x).strapSafePin = s.strapSafePin := by unfold State.enterFlywheel; simp

@[simp] theorem State.enterFlywheel_straps (s : State) (x : Word) :
    (s.enterFlywheel x).straps = s.straps := by unfold State.enterFlywheel; simp

@[simp] theorem State.enterFlywheel_trk (s : State) (x : Word) :
    (s.enterFlywheel x).trk = s.trk := by unfold State.enterFlywheel; simp

@[simp] theorem State.enterFlywheel_jobs (s : State) (x : Word) :
    (s.enterFlywheel x).jobs = s.jobs := by unfold State.enterFlywheel; simp

@[simp] theorem State.enterFlywheel_tab (s : State) (x : Word) :
    (s.enterFlywheel x).tab = s.tab := by unfold State.enterFlywheel; simp

@[simp] theorem State.enterFlywheel_tau (s : State) (x : Word) :
    (s.enterFlywheel x).tau = s.tau := by unfold State.enterFlywheel; simp

@[simp] theorem State.enterFlywheel_kg (s : State) (x : Word) :
    (s.enterFlywheel x).kg = s.kg := by unfold State.enterFlywheel; simp

@[simp] theorem State.enterFlywheel_pock (s : State) (x : Word) :
    (s.enterFlywheel x).pock = s.pock := by unfold State.enterFlywheel; simp

@[simp] theorem State.enterFlywheel_offerSetting (s : State) (x : Word) :
    (s.enterFlywheel x).offerSetting = s.offerSetting := by unfold State.enterFlywheel; simp

@[simp] theorem State.enterFlywheel_rng (s : State) (x : Word) :
    (s.enterFlywheel x).rng = s.rng := by unfold State.enterFlywheel; simp

@[simp] theorem State.enterFlywheel_line (s : State) (x : Word) :
    (s.enterFlywheel x).line = s.line := by unfold State.enterFlywheel; simp

@[simp] theorem State.enterFlywheel_insp (s : State) (x : Word) :
    (s.enterFlywheel x).insp = s.insp := by unfold State.enterFlywheel; simp

@[simp] theorem State.enterFlywheel_deliv (s : State) (x : Word) :
    (s.enterFlywheel x).deliv = s.deliv := by unfold State.enterFlywheel; simp

@[simp] theorem State.enterFlywheel_partBuffer (s : State) (x : Word) :
    (s.enterFlywheel x).partBuffer = s.partBuffer := by unfold State.enterFlywheel; simp

@[simp] theorem State.enterFlywheel_pending (s : State) (x : Word) :
    (s.enterFlywheel x).pending = s.pending := by unfold State.enterFlywheel; simp

@[simp] theorem State.gatesToDivert_inReset (s : State) :
    (s.gatesToDivert).inReset = s.inReset := rfl

@[simp] theorem State.gatesToDivert_strapSafePin (s : State) :
    (s.gatesToDivert).strapSafePin = s.strapSafePin := rfl

@[simp] theorem State.gatesToDivert_straps (s : State) :
    (s.gatesToDivert).straps = s.straps := rfl

@[simp] theorem State.gatesToDivert_pos (s : State) :
    (s.gatesToDivert).pos = s.pos := rfl

@[simp] theorem State.gatesToDivert_trk (s : State) :
    (s.gatesToDivert).trk = s.trk := rfl

@[simp] theorem State.gatesToDivert_jobs (s : State) :
    (s.gatesToDivert).jobs = s.jobs := rfl

@[simp] theorem State.gatesToDivert_tab (s : State) :
    (s.gatesToDivert).tab = s.tab := rfl

@[simp] theorem State.gatesToDivert_tau (s : State) :
    (s.gatesToDivert).tau = s.tau := rfl

@[simp] theorem State.gatesToDivert_pock (s : State) :
    (s.gatesToDivert).pock = s.pock := rfl

@[simp] theorem State.gatesToDivert_offerSetting (s : State) :
    (s.gatesToDivert).offerSetting = s.offerSetting := rfl

@[simp] theorem State.gatesToDivert_rng (s : State) :
    (s.gatesToDivert).rng = s.rng := rfl

@[simp] theorem State.gatesToDivert_line (s : State) :
    (s.gatesToDivert).line = s.line := rfl

@[simp] theorem State.gatesToDivert_insp (s : State) :
    (s.gatesToDivert).insp = s.insp := rfl

@[simp] theorem State.gatesToDivert_deliv (s : State) :
    (s.gatesToDivert).deliv = s.deliv := rfl

@[simp] theorem State.gatesToDivert_partBuffer (s : State) :
    (s.gatesToDivert).partBuffer = s.partBuffer := rfl

@[simp] theorem State.gatesToDivert_pending (s : State) :
    (s.gatesToDivert).pending = s.pending := rfl

@[simp] theorem State.releaseSeps_inReset (s : State) :
    (s.releaseSeps).inReset = s.inReset := rfl

@[simp] theorem State.releaseSeps_strapSafePin (s : State) :
    (s.releaseSeps).strapSafePin = s.strapSafePin := rfl

@[simp] theorem State.releaseSeps_straps (s : State) :
    (s.releaseSeps).straps = s.straps := rfl

@[simp] theorem State.releaseSeps_pos (s : State) :
    (s.releaseSeps).pos = s.pos := rfl

@[simp] theorem State.releaseSeps_trk (s : State) :
    (s.releaseSeps).trk = s.trk := rfl

@[simp] theorem State.releaseSeps_jobs (s : State) :
    (s.releaseSeps).jobs = s.jobs := rfl

@[simp] theorem State.releaseSeps_tab (s : State) :
    (s.releaseSeps).tab = s.tab := rfl

@[simp] theorem State.releaseSeps_tau (s : State) :
    (s.releaseSeps).tau = s.tau := rfl

@[simp] theorem State.releaseSeps_pock (s : State) :
    (s.releaseSeps).pock = s.pock := rfl

@[simp] theorem State.releaseSeps_offerSetting (s : State) :
    (s.releaseSeps).offerSetting = s.offerSetting := rfl

@[simp] theorem State.releaseSeps_rng (s : State) :
    (s.releaseSeps).rng = s.rng := rfl

@[simp] theorem State.releaseSeps_line (s : State) :
    (s.releaseSeps).line = s.line := rfl

@[simp] theorem State.releaseSeps_insp (s : State) :
    (s.releaseSeps).insp = s.insp := rfl

@[simp] theorem State.releaseSeps_deliv (s : State) :
    (s.releaseSeps).deliv = s.deliv := rfl

@[simp] theorem State.releaseSeps_partBuffer (s : State) :
    (s.releaseSeps).partBuffer = s.partBuffer := rfl

@[simp] theorem State.releaseSeps_pending (s : State) :
    (s.releaseSeps).pending = s.pending := rfl

@[simp] theorem State.assertSep_inReset (s : State) (lane : Nat) :
    (s.assertSep lane).inReset = s.inReset := rfl

@[simp] theorem State.assertSep_strapSafePin (s : State) (lane : Nat) :
    (s.assertSep lane).strapSafePin = s.strapSafePin := rfl

@[simp] theorem State.assertSep_straps (s : State) (lane : Nat) :
    (s.assertSep lane).straps = s.straps := rfl

@[simp] theorem State.assertSep_pos (s : State) (lane : Nat) :
    (s.assertSep lane).pos = s.pos := rfl

@[simp] theorem State.assertSep_trk (s : State) (lane : Nat) :
    (s.assertSep lane).trk = s.trk := rfl

@[simp] theorem State.assertSep_jobs (s : State) (lane : Nat) :
    (s.assertSep lane).jobs = s.jobs := rfl

@[simp] theorem State.assertSep_tab (s : State) (lane : Nat) :
    (s.assertSep lane).tab = s.tab := rfl

@[simp] theorem State.assertSep_tau (s : State) (lane : Nat) :
    (s.assertSep lane).tau = s.tau := rfl

@[simp] theorem State.assertSep_pock (s : State) (lane : Nat) :
    (s.assertSep lane).pock = s.pock := rfl

@[simp] theorem State.assertSep_offerSetting (s : State) (lane : Nat) :
    (s.assertSep lane).offerSetting = s.offerSetting := rfl

@[simp] theorem State.assertSep_rng (s : State) (lane : Nat) :
    (s.assertSep lane).rng = s.rng := rfl

@[simp] theorem State.assertSep_line (s : State) (lane : Nat) :
    (s.assertSep lane).line = s.line := rfl

@[simp] theorem State.assertSep_insp (s : State) (lane : Nat) :
    (s.assertSep lane).insp = s.insp := rfl

@[simp] theorem State.assertSep_deliv (s : State) (lane : Nat) :
    (s.assertSep lane).deliv = s.deliv := rfl

@[simp] theorem State.assertSep_partBuffer (s : State) (lane : Nat) :
    (s.assertSep lane).partBuffer = s.partBuffer := rfl

@[simp] theorem State.assertSep_pending (s : State) (lane : Nat) :
    (s.assertSep lane).pending = s.pending := rfl

@[simp] theorem State.modifyRow_inReset (s : State) (n : Word) (f : Row → Row) :
    (s.modifyRow n f).inReset = s.inReset := rfl

@[simp] theorem State.modifyRow_strapSafePin (s : State) (n : Word) (f : Row → Row) :
    (s.modifyRow n f).strapSafePin = s.strapSafePin := rfl

@[simp] theorem State.modifyRow_straps (s : State) (n : Word) (f : Row → Row) :
    (s.modifyRow n f).straps = s.straps := rfl

@[simp] theorem State.modifyRow_pos (s : State) (n : Word) (f : Row → Row) :
    (s.modifyRow n f).pos = s.pos := rfl

@[simp] theorem State.modifyRow_trk (s : State) (n : Word) (f : Row → Row) :
    (s.modifyRow n f).trk = s.trk := rfl

@[simp] theorem State.modifyRow_jobs (s : State) (n : Word) (f : Row → Row) :
    (s.modifyRow n f).jobs = s.jobs := rfl

@[simp] theorem State.modifyRow_tau (s : State) (n : Word) (f : Row → Row) :
    (s.modifyRow n f).tau = s.tau := rfl

@[simp] theorem State.modifyRow_kg (s : State) (n : Word) (f : Row → Row) :
    (s.modifyRow n f).kg = s.kg := rfl

@[simp] theorem State.modifyRow_pock (s : State) (n : Word) (f : Row → Row) :
    (s.modifyRow n f).pock = s.pock := rfl

@[simp] theorem State.modifyRow_offerSetting (s : State) (n : Word) (f : Row → Row) :
    (s.modifyRow n f).offerSetting = s.offerSetting := rfl

@[simp] theorem State.modifyRow_rng (s : State) (n : Word) (f : Row → Row) :
    (s.modifyRow n f).rng = s.rng := rfl

@[simp] theorem State.modifyRow_line (s : State) (n : Word) (f : Row → Row) :
    (s.modifyRow n f).line = s.line := rfl

@[simp] theorem State.modifyRow_insp (s : State) (n : Word) (f : Row → Row) :
    (s.modifyRow n f).insp = s.insp := rfl

@[simp] theorem State.modifyRow_deliv (s : State) (n : Word) (f : Row → Row) :
    (s.modifyRow n f).deliv = s.deliv := rfl

@[simp] theorem State.modifyRow_partBuffer (s : State) (n : Word) (f : Row → Row) :
    (s.modifyRow n f).partBuffer = s.partBuffer := rfl

@[simp] theorem State.modifyRow_pending (s : State) (n : Word) (f : Row → Row) :
    (s.modifyRow n f).pending = s.pending := rfl

@[simp] theorem State.modifyLane_inReset (s : State) (lane : Nat) (f : PocketLane → PocketLane) :
    (s.modifyLane lane f).inReset = s.inReset := rfl

@[simp] theorem State.modifyLane_strapSafePin (s : State) (lane : Nat) (f : PocketLane → PocketLane) :
    (s.modifyLane lane f).strapSafePin = s.strapSafePin := rfl

@[simp] theorem State.modifyLane_straps (s : State) (lane : Nat) (f : PocketLane → PocketLane) :
    (s.modifyLane lane f).straps = s.straps := rfl

@[simp] theorem State.modifyLane_pos (s : State) (lane : Nat) (f : PocketLane → PocketLane) :
    (s.modifyLane lane f).pos = s.pos := rfl

@[simp] theorem State.modifyLane_trk (s : State) (lane : Nat) (f : PocketLane → PocketLane) :
    (s.modifyLane lane f).trk = s.trk := rfl

@[simp] theorem State.modifyLane_jobs (s : State) (lane : Nat) (f : PocketLane → PocketLane) :
    (s.modifyLane lane f).jobs = s.jobs := rfl

@[simp] theorem State.modifyLane_tab (s : State) (lane : Nat) (f : PocketLane → PocketLane) :
    (s.modifyLane lane f).tab = s.tab := rfl

@[simp] theorem State.modifyLane_tau (s : State) (lane : Nat) (f : PocketLane → PocketLane) :
    (s.modifyLane lane f).tau = s.tau := rfl

@[simp] theorem State.modifyLane_kg (s : State) (lane : Nat) (f : PocketLane → PocketLane) :
    (s.modifyLane lane f).kg = s.kg := rfl

@[simp] theorem State.modifyLane_offerSetting (s : State) (lane : Nat) (f : PocketLane → PocketLane) :
    (s.modifyLane lane f).offerSetting = s.offerSetting := rfl

@[simp] theorem State.modifyLane_rng (s : State) (lane : Nat) (f : PocketLane → PocketLane) :
    (s.modifyLane lane f).rng = s.rng := rfl

@[simp] theorem State.modifyLane_line (s : State) (lane : Nat) (f : PocketLane → PocketLane) :
    (s.modifyLane lane f).line = s.line := rfl

@[simp] theorem State.modifyLane_insp (s : State) (lane : Nat) (f : PocketLane → PocketLane) :
    (s.modifyLane lane f).insp = s.insp := rfl

@[simp] theorem State.modifyLane_deliv (s : State) (lane : Nat) (f : PocketLane → PocketLane) :
    (s.modifyLane lane f).deliv = s.deliv := rfl

@[simp] theorem State.modifyLane_partBuffer (s : State) (lane : Nat) (f : PocketLane → PocketLane) :
    (s.modifyLane lane f).partBuffer = s.partBuffer := rfl

@[simp] theorem State.modifyLane_pending (s : State) (lane : Nat) (f : PocketLane → PocketLane) :
    (s.modifyLane lane f).pending = s.pending := rfl

@[simp] theorem State.modifyHeld_inReset (s : State) (lane : Nat) (f : Stack → Stack) :
    (s.modifyHeld lane f).inReset = s.inReset := rfl

@[simp] theorem State.modifyHeld_strapSafePin (s : State) (lane : Nat) (f : Stack → Stack) :
    (s.modifyHeld lane f).strapSafePin = s.strapSafePin := rfl

@[simp] theorem State.modifyHeld_straps (s : State) (lane : Nat) (f : Stack → Stack) :
    (s.modifyHeld lane f).straps = s.straps := rfl

@[simp] theorem State.modifyHeld_pos (s : State) (lane : Nat) (f : Stack → Stack) :
    (s.modifyHeld lane f).pos = s.pos := rfl

@[simp] theorem State.modifyHeld_trk (s : State) (lane : Nat) (f : Stack → Stack) :
    (s.modifyHeld lane f).trk = s.trk := rfl

@[simp] theorem State.modifyHeld_jobs (s : State) (lane : Nat) (f : Stack → Stack) :
    (s.modifyHeld lane f).jobs = s.jobs := rfl

@[simp] theorem State.modifyHeld_tab (s : State) (lane : Nat) (f : Stack → Stack) :
    (s.modifyHeld lane f).tab = s.tab := rfl

@[simp] theorem State.modifyHeld_tau (s : State) (lane : Nat) (f : Stack → Stack) :
    (s.modifyHeld lane f).tau = s.tau := rfl

@[simp] theorem State.modifyHeld_kg (s : State) (lane : Nat) (f : Stack → Stack) :
    (s.modifyHeld lane f).kg = s.kg := rfl

@[simp] theorem State.modifyHeld_offerSetting (s : State) (lane : Nat) (f : Stack → Stack) :
    (s.modifyHeld lane f).offerSetting = s.offerSetting := rfl

@[simp] theorem State.modifyHeld_rng (s : State) (lane : Nat) (f : Stack → Stack) :
    (s.modifyHeld lane f).rng = s.rng := rfl

@[simp] theorem State.modifyHeld_line (s : State) (lane : Nat) (f : Stack → Stack) :
    (s.modifyHeld lane f).line = s.line := rfl

@[simp] theorem State.modifyHeld_insp (s : State) (lane : Nat) (f : Stack → Stack) :
    (s.modifyHeld lane f).insp = s.insp := rfl

@[simp] theorem State.modifyHeld_deliv (s : State) (lane : Nat) (f : Stack → Stack) :
    (s.modifyHeld lane f).deliv = s.deliv := rfl

@[simp] theorem State.modifyHeld_partBuffer (s : State) (lane : Nat) (f : Stack → Stack) :
    (s.modifyHeld lane f).partBuffer = s.partBuffer := rfl

@[simp] theorem State.modifyHeld_pending (s : State) (lane : Nat) (f : Stack → Stack) :
    (s.modifyHeld lane f).pending = s.pending := rfl

@[simp] theorem State.modifyOpen_inReset (s : State) (lane : Nat) (f : Stack → Stack) :
    (s.modifyOpen lane f).inReset = s.inReset := rfl

@[simp] theorem State.modifyOpen_strapSafePin (s : State) (lane : Nat) (f : Stack → Stack) :
    (s.modifyOpen lane f).strapSafePin = s.strapSafePin := rfl

@[simp] theorem State.modifyOpen_straps (s : State) (lane : Nat) (f : Stack → Stack) :
    (s.modifyOpen lane f).straps = s.straps := rfl

@[simp] theorem State.modifyOpen_pos (s : State) (lane : Nat) (f : Stack → Stack) :
    (s.modifyOpen lane f).pos = s.pos := rfl

@[simp] theorem State.modifyOpen_trk (s : State) (lane : Nat) (f : Stack → Stack) :
    (s.modifyOpen lane f).trk = s.trk := rfl

@[simp] theorem State.modifyOpen_jobs (s : State) (lane : Nat) (f : Stack → Stack) :
    (s.modifyOpen lane f).jobs = s.jobs := rfl

@[simp] theorem State.modifyOpen_tab (s : State) (lane : Nat) (f : Stack → Stack) :
    (s.modifyOpen lane f).tab = s.tab := rfl

@[simp] theorem State.modifyOpen_tau (s : State) (lane : Nat) (f : Stack → Stack) :
    (s.modifyOpen lane f).tau = s.tau := rfl

@[simp] theorem State.modifyOpen_kg (s : State) (lane : Nat) (f : Stack → Stack) :
    (s.modifyOpen lane f).kg = s.kg := rfl

@[simp] theorem State.modifyOpen_offerSetting (s : State) (lane : Nat) (f : Stack → Stack) :
    (s.modifyOpen lane f).offerSetting = s.offerSetting := rfl

@[simp] theorem State.modifyOpen_rng (s : State) (lane : Nat) (f : Stack → Stack) :
    (s.modifyOpen lane f).rng = s.rng := rfl

@[simp] theorem State.modifyOpen_line (s : State) (lane : Nat) (f : Stack → Stack) :
    (s.modifyOpen lane f).line = s.line := rfl

@[simp] theorem State.modifyOpen_insp (s : State) (lane : Nat) (f : Stack → Stack) :
    (s.modifyOpen lane f).insp = s.insp := rfl

@[simp] theorem State.modifyOpen_deliv (s : State) (lane : Nat) (f : Stack → Stack) :
    (s.modifyOpen lane f).deliv = s.deliv := rfl

@[simp] theorem State.modifyOpen_partBuffer (s : State) (lane : Nat) (f : Stack → Stack) :
    (s.modifyOpen lane f).partBuffer = s.partBuffer := rfl

@[simp] theorem State.modifyOpen_pending (s : State) (lane : Nat) (f : Stack → Stack) :
    (s.modifyOpen lane f).pending = s.pending := rfl

@[simp] theorem State.handEvent_inReset (s : State) (e : TrackingEvent) :
    (s.handEvent e).inReset = s.inReset := rfl

@[simp] theorem State.handEvent_strapSafePin (s : State) (e : TrackingEvent) :
    (s.handEvent e).strapSafePin = s.strapSafePin := rfl

@[simp] theorem State.handEvent_straps (s : State) (e : TrackingEvent) :
    (s.handEvent e).straps = s.straps := rfl

@[simp] theorem State.handEvent_pos (s : State) (e : TrackingEvent) :
    (s.handEvent e).pos = s.pos := rfl

@[simp] theorem State.handEvent_trk (s : State) (e : TrackingEvent) :
    (s.handEvent e).trk = s.trk := rfl

@[simp] theorem State.handEvent_jobs (s : State) (e : TrackingEvent) :
    (s.handEvent e).jobs = s.jobs := rfl

@[simp] theorem State.handEvent_tab (s : State) (e : TrackingEvent) :
    (s.handEvent e).tab = s.tab := rfl

@[simp] theorem State.handEvent_kg (s : State) (e : TrackingEvent) :
    (s.handEvent e).kg = s.kg := rfl

@[simp] theorem State.handEvent_pock (s : State) (e : TrackingEvent) :
    (s.handEvent e).pock = s.pock := rfl

@[simp] theorem State.handEvent_offerSetting (s : State) (e : TrackingEvent) :
    (s.handEvent e).offerSetting = s.offerSetting := rfl

@[simp] theorem State.handEvent_rng (s : State) (e : TrackingEvent) :
    (s.handEvent e).rng = s.rng := rfl

@[simp] theorem State.handEvent_line (s : State) (e : TrackingEvent) :
    (s.handEvent e).line = s.line := rfl

@[simp] theorem State.handEvent_insp (s : State) (e : TrackingEvent) :
    (s.handEvent e).insp = s.insp := rfl

@[simp] theorem State.handEvent_deliv (s : State) (e : TrackingEvent) :
    (s.handEvent e).deliv = s.deliv := rfl

@[simp] theorem State.handEvent_partBuffer (s : State) (e : TrackingEvent) :
    (s.handEvent e).partBuffer = s.partBuffer := rfl

@[simp] theorem State.handEvent_pending (s : State) (e : TrackingEvent) :
    (s.handEvent e).pending = s.pending := rfl

@[simp] theorem State.withEvents_inReset (s : State) (l : List TrackingEvent) :
    (s.withEvents l).inReset = s.inReset := rfl

@[simp] theorem State.withEvents_strapSafePin (s : State) (l : List TrackingEvent) :
    (s.withEvents l).strapSafePin = s.strapSafePin := rfl

@[simp] theorem State.withEvents_straps (s : State) (l : List TrackingEvent) :
    (s.withEvents l).straps = s.straps := rfl

@[simp] theorem State.withEvents_pos (s : State) (l : List TrackingEvent) :
    (s.withEvents l).pos = s.pos := rfl

@[simp] theorem State.withEvents_trk (s : State) (l : List TrackingEvent) :
    (s.withEvents l).trk = s.trk := rfl

@[simp] theorem State.withEvents_jobs (s : State) (l : List TrackingEvent) :
    (s.withEvents l).jobs = s.jobs := rfl

@[simp] theorem State.withEvents_tab (s : State) (l : List TrackingEvent) :
    (s.withEvents l).tab = s.tab := rfl

@[simp] theorem State.withEvents_kg (s : State) (l : List TrackingEvent) :
    (s.withEvents l).kg = s.kg := rfl

@[simp] theorem State.withEvents_pock (s : State) (l : List TrackingEvent) :
    (s.withEvents l).pock = s.pock := rfl

@[simp] theorem State.withEvents_offerSetting (s : State) (l : List TrackingEvent) :
    (s.withEvents l).offerSetting = s.offerSetting := rfl

@[simp] theorem State.withEvents_rng (s : State) (l : List TrackingEvent) :
    (s.withEvents l).rng = s.rng := rfl

@[simp] theorem State.withEvents_line (s : State) (l : List TrackingEvent) :
    (s.withEvents l).line = s.line := rfl

@[simp] theorem State.withEvents_insp (s : State) (l : List TrackingEvent) :
    (s.withEvents l).insp = s.insp := rfl

@[simp] theorem State.withEvents_deliv (s : State) (l : List TrackingEvent) :
    (s.withEvents l).deliv = s.deliv := rfl

@[simp] theorem State.withEvents_partBuffer (s : State) (l : List TrackingEvent) :
    (s.withEvents l).partBuffer = s.partBuffer := rfl

@[simp] theorem State.withEvents_pending (s : State) (l : List TrackingEvent) :
    (s.withEvents l).pending = s.pending := rfl

@[simp] theorem State.staleMarks_inReset (s : State) :
    (s.staleMarks).inReset = s.inReset := rfl

@[simp] theorem State.staleMarks_strapSafePin (s : State) :
    (s.staleMarks).strapSafePin = s.strapSafePin := rfl

@[simp] theorem State.staleMarks_straps (s : State) :
    (s.staleMarks).straps = s.straps := rfl

@[simp] theorem State.staleMarks_pos (s : State) :
    (s.staleMarks).pos = s.pos := rfl

@[simp] theorem State.staleMarks_trk (s : State) :
    (s.staleMarks).trk = s.trk := rfl

@[simp] theorem State.staleMarks_jobs (s : State) :
    (s.staleMarks).jobs = s.jobs := rfl

@[simp] theorem State.staleMarks_tab (s : State) :
    (s.staleMarks).tab = s.tab := rfl

@[simp] theorem State.staleMarks_kg (s : State) :
    (s.staleMarks).kg = s.kg := rfl

@[simp] theorem State.staleMarks_pock (s : State) :
    (s.staleMarks).pock = s.pock := rfl

@[simp] theorem State.staleMarks_offerSetting (s : State) :
    (s.staleMarks).offerSetting = s.offerSetting := rfl

@[simp] theorem State.staleMarks_rng (s : State) :
    (s.staleMarks).rng = s.rng := rfl

@[simp] theorem State.staleMarks_line (s : State) :
    (s.staleMarks).line = s.line := rfl

@[simp] theorem State.staleMarks_insp (s : State) :
    (s.staleMarks).insp = s.insp := rfl

@[simp] theorem State.staleMarks_deliv (s : State) :
    (s.staleMarks).deliv = s.deliv := rfl

@[simp] theorem State.staleMarks_partBuffer (s : State) :
    (s.staleMarks).partBuffer = s.partBuffer := rfl

@[simp] theorem State.staleMarks_pending (s : State) :
    (s.staleMarks).pending = s.pending := rfl

@[simp] theorem State.emptyTable_inReset (s : State) :
    (s.emptyTable).inReset = s.inReset := rfl

@[simp] theorem State.emptyTable_strapSafePin (s : State) :
    (s.emptyTable).strapSafePin = s.strapSafePin := rfl

@[simp] theorem State.emptyTable_straps (s : State) :
    (s.emptyTable).straps = s.straps := rfl

@[simp] theorem State.emptyTable_trk (s : State) :
    (s.emptyTable).trk = s.trk := rfl

@[simp] theorem State.emptyTable_jobs (s : State) :
    (s.emptyTable).jobs = s.jobs := rfl

@[simp] theorem State.emptyTable_tau (s : State) :
    (s.emptyTable).tau = s.tau := rfl

@[simp] theorem State.emptyTable_kg (s : State) :
    (s.emptyTable).kg = s.kg := rfl

@[simp] theorem State.emptyTable_pock (s : State) :
    (s.emptyTable).pock = s.pock := rfl

@[simp] theorem State.emptyTable_offerSetting (s : State) :
    (s.emptyTable).offerSetting = s.offerSetting := rfl

@[simp] theorem State.emptyTable_rng (s : State) :
    (s.emptyTable).rng = s.rng := rfl

@[simp] theorem State.emptyTable_line (s : State) :
    (s.emptyTable).line = s.line := rfl

@[simp] theorem State.emptyTable_insp (s : State) :
    (s.emptyTable).insp = s.insp := rfl

@[simp] theorem State.emptyTable_deliv (s : State) :
    (s.emptyTable).deliv = s.deliv := rfl

@[simp] theorem State.emptyTable_partBuffer (s : State) :
    (s.emptyTable).partBuffer = s.partBuffer := rfl

@[simp] theorem State.emptyTable_pending (s : State) :
    (s.emptyTable).pending = s.pending := rfl

@[simp] theorem State.synchronise_inReset (s : State) :
    (s.synchronise).inReset = s.inReset := rfl

@[simp] theorem State.synchronise_strapSafePin (s : State) :
    (s.synchronise).strapSafePin = s.strapSafePin := rfl

@[simp] theorem State.synchronise_straps (s : State) :
    (s.synchronise).straps = s.straps := rfl

@[simp] theorem State.synchronise_pos (s : State) :
    (s.synchronise).pos = s.pos := rfl

@[simp] theorem State.synchronise_jobs (s : State) :
    (s.synchronise).jobs = s.jobs := rfl

@[simp] theorem State.synchronise_tab (s : State) :
    (s.synchronise).tab = s.tab := rfl

@[simp] theorem State.synchronise_tau (s : State) :
    (s.synchronise).tau = s.tau := rfl

@[simp] theorem State.synchronise_kg (s : State) :
    (s.synchronise).kg = s.kg := rfl

@[simp] theorem State.synchronise_pock (s : State) :
    (s.synchronise).pock = s.pock := rfl

@[simp] theorem State.synchronise_offerSetting (s : State) :
    (s.synchronise).offerSetting = s.offerSetting := rfl

@[simp] theorem State.synchronise_rng (s : State) :
    (s.synchronise).rng = s.rng := rfl

@[simp] theorem State.synchronise_line (s : State) :
    (s.synchronise).line = s.line := rfl

@[simp] theorem State.synchronise_insp (s : State) :
    (s.synchronise).insp = s.insp := rfl

@[simp] theorem State.synchronise_deliv (s : State) :
    (s.synchronise).deliv = s.deliv := rfl

@[simp] theorem State.synchronise_partBuffer (s : State) :
    (s.synchronise).partBuffer = s.partBuffer := rfl

@[simp] theorem State.synchronise_pending (s : State) :
    (s.synchronise).pending = s.pending := rfl

@[simp] theorem State.clearPending_inReset (s : State) :
    (s.clearPending).inReset = s.inReset := rfl

@[simp] theorem State.clearPending_strapSafePin (s : State) :
    (s.clearPending).strapSafePin = s.strapSafePin := rfl

@[simp] theorem State.clearPending_straps (s : State) :
    (s.clearPending).straps = s.straps := rfl

@[simp] theorem State.clearPending_pos (s : State) :
    (s.clearPending).pos = s.pos := rfl

@[simp] theorem State.clearPending_trk (s : State) :
    (s.clearPending).trk = s.trk := rfl

@[simp] theorem State.clearPending_jobs (s : State) :
    (s.clearPending).jobs = s.jobs := rfl

@[simp] theorem State.clearPending_tab (s : State) :
    (s.clearPending).tab = s.tab := rfl

@[simp] theorem State.clearPending_tau (s : State) :
    (s.clearPending).tau = s.tau := rfl

@[simp] theorem State.clearPending_kg (s : State) :
    (s.clearPending).kg = s.kg := rfl

@[simp] theorem State.clearPending_offerSetting (s : State) :
    (s.clearPending).offerSetting = s.offerSetting := rfl

@[simp] theorem State.clearPending_rng (s : State) :
    (s.clearPending).rng = s.rng := rfl

@[simp] theorem State.clearPending_line (s : State) :
    (s.clearPending).line = s.line := rfl

@[simp] theorem State.clearPending_insp (s : State) :
    (s.clearPending).insp = s.insp := rfl

@[simp] theorem State.clearPending_deliv (s : State) :
    (s.clearPending).deliv = s.deliv := rfl

@[simp] theorem State.clearPending_partBuffer (s : State) :
    (s.clearPending).partBuffer = s.partBuffer := rfl

@[simp] theorem State.clearPending_pending (s : State) :
    (s.clearPending).pending = s.pending := rfl

@[simp] theorem State.portServed_inReset (s : State) (p : Port) :
    (s.portServed p).inReset = s.inReset := rfl

@[simp] theorem State.portServed_strapSafePin (s : State) (p : Port) :
    (s.portServed p).strapSafePin = s.strapSafePin := rfl

@[simp] theorem State.portServed_straps (s : State) (p : Port) :
    (s.portServed p).straps = s.straps := rfl

@[simp] theorem State.portServed_pos (s : State) (p : Port) :
    (s.portServed p).pos = s.pos := rfl

@[simp] theorem State.portServed_trk (s : State) (p : Port) :
    (s.portServed p).trk = s.trk := rfl

@[simp] theorem State.portServed_jobs (s : State) (p : Port) :
    (s.portServed p).jobs = s.jobs := rfl

@[simp] theorem State.portServed_tab (s : State) (p : Port) :
    (s.portServed p).tab = s.tab := rfl

@[simp] theorem State.portServed_kg (s : State) (p : Port) :
    (s.portServed p).kg = s.kg := rfl

@[simp] theorem State.portServed_pock (s : State) (p : Port) :
    (s.portServed p).pock = s.pock := rfl

@[simp] theorem State.portServed_offerSetting (s : State) (p : Port) :
    (s.portServed p).offerSetting = s.offerSetting := rfl

@[simp] theorem State.portServed_rng (s : State) (p : Port) :
    (s.portServed p).rng = s.rng := rfl

@[simp] theorem State.portServed_line (s : State) (p : Port) :
    (s.portServed p).line = s.line := rfl

@[simp] theorem State.portServed_insp (s : State) (p : Port) :
    (s.portServed p).insp = s.insp := rfl

@[simp] theorem State.portServed_deliv (s : State) (p : Port) :
    (s.portServed p).deliv = s.deliv := rfl

@[simp] theorem State.portServed_partBuffer (s : State) (p : Port) :
    (s.portServed p).partBuffer = s.partBuffer := rfl

@[simp] theorem State.portServed_pending (s : State) (p : Port) :
    (s.portServed p).pending = s.pending := rfl

@[simp] theorem State.withQueue_inReset (s : State) (q : List RangeEntry) :
    (s.withQueue q).inReset = s.inReset := rfl

@[simp] theorem State.withQueue_strapSafePin (s : State) (q : List RangeEntry) :
    (s.withQueue q).strapSafePin = s.strapSafePin := rfl

@[simp] theorem State.withQueue_straps (s : State) (q : List RangeEntry) :
    (s.withQueue q).straps = s.straps := rfl

@[simp] theorem State.withQueue_pos (s : State) (q : List RangeEntry) :
    (s.withQueue q).pos = s.pos := rfl

@[simp] theorem State.withQueue_trk (s : State) (q : List RangeEntry) :
    (s.withQueue q).trk = s.trk := rfl

@[simp] theorem State.withQueue_jobs (s : State) (q : List RangeEntry) :
    (s.withQueue q).jobs = s.jobs := rfl

@[simp] theorem State.withQueue_tab (s : State) (q : List RangeEntry) :
    (s.withQueue q).tab = s.tab := rfl

@[simp] theorem State.withQueue_tau (s : State) (q : List RangeEntry) :
    (s.withQueue q).tau = s.tau := rfl

@[simp] theorem State.withQueue_kg (s : State) (q : List RangeEntry) :
    (s.withQueue q).kg = s.kg := rfl

@[simp] theorem State.withQueue_pock (s : State) (q : List RangeEntry) :
    (s.withQueue q).pock = s.pock := rfl

@[simp] theorem State.withQueue_offerSetting (s : State) (q : List RangeEntry) :
    (s.withQueue q).offerSetting = s.offerSetting := rfl

@[simp] theorem State.withQueue_line (s : State) (q : List RangeEntry) :
    (s.withQueue q).line = s.line := rfl

@[simp] theorem State.withQueue_insp (s : State) (q : List RangeEntry) :
    (s.withQueue q).insp = s.insp := rfl

@[simp] theorem State.withQueue_deliv (s : State) (q : List RangeEntry) :
    (s.withQueue q).deliv = s.deliv := rfl

@[simp] theorem State.withQueue_partBuffer (s : State) (q : List RangeEntry) :
    (s.withQueue q).partBuffer = s.partBuffer := rfl

@[simp] theorem State.withQueue_pending (s : State) (q : List RangeEntry) :
    (s.withQueue q).pending = s.pending := rfl

@[simp] theorem State.clearDebt_inReset (s : State) :
    (s.clearDebt).inReset = s.inReset := rfl

@[simp] theorem State.clearDebt_strapSafePin (s : State) :
    (s.clearDebt).strapSafePin = s.strapSafePin := rfl

@[simp] theorem State.clearDebt_straps (s : State) :
    (s.clearDebt).straps = s.straps := rfl

@[simp] theorem State.clearDebt_pos (s : State) :
    (s.clearDebt).pos = s.pos := rfl

@[simp] theorem State.clearDebt_trk (s : State) :
    (s.clearDebt).trk = s.trk := rfl

@[simp] theorem State.clearDebt_jobs (s : State) :
    (s.clearDebt).jobs = s.jobs := rfl

@[simp] theorem State.clearDebt_tab (s : State) :
    (s.clearDebt).tab = s.tab := rfl

@[simp] theorem State.clearDebt_tau (s : State) :
    (s.clearDebt).tau = s.tau := rfl

@[simp] theorem State.clearDebt_pock (s : State) :
    (s.clearDebt).pock = s.pock := rfl

@[simp] theorem State.clearDebt_offerSetting (s : State) :
    (s.clearDebt).offerSetting = s.offerSetting := rfl

@[simp] theorem State.clearDebt_rng (s : State) :
    (s.clearDebt).rng = s.rng := rfl

@[simp] theorem State.clearDebt_line (s : State) :
    (s.clearDebt).line = s.line := rfl

@[simp] theorem State.clearDebt_insp (s : State) :
    (s.clearDebt).insp = s.insp := rfl

@[simp] theorem State.clearDebt_deliv (s : State) :
    (s.clearDebt).deliv = s.deliv := rfl

@[simp] theorem State.clearDebt_partBuffer (s : State) :
    (s.clearDebt).partBuffer = s.partBuffer := rfl

@[simp] theorem State.clearDebt_pending (s : State) :
    (s.clearDebt).pending = s.pending := rfl

@[simp] theorem State.schedule_inReset (s : State) (w : Option ScheduledSwitch) :
    (s.schedule w).inReset = s.inReset := rfl

@[simp] theorem State.schedule_strapSafePin (s : State) (w : Option ScheduledSwitch) :
    (s.schedule w).strapSafePin = s.strapSafePin := rfl

@[simp] theorem State.schedule_straps (s : State) (w : Option ScheduledSwitch) :
    (s.schedule w).straps = s.straps := rfl

@[simp] theorem State.schedule_pos (s : State) (w : Option ScheduledSwitch) :
    (s.schedule w).pos = s.pos := rfl

@[simp] theorem State.schedule_trk (s : State) (w : Option ScheduledSwitch) :
    (s.schedule w).trk = s.trk := rfl

@[simp] theorem State.schedule_tab (s : State) (w : Option ScheduledSwitch) :
    (s.schedule w).tab = s.tab := rfl

@[simp] theorem State.schedule_tau (s : State) (w : Option ScheduledSwitch) :
    (s.schedule w).tau = s.tau := rfl

@[simp] theorem State.schedule_kg (s : State) (w : Option ScheduledSwitch) :
    (s.schedule w).kg = s.kg := rfl

@[simp] theorem State.schedule_pock (s : State) (w : Option ScheduledSwitch) :
    (s.schedule w).pock = s.pock := rfl

@[simp] theorem State.schedule_offerSetting (s : State) (w : Option ScheduledSwitch) :
    (s.schedule w).offerSetting = s.offerSetting := rfl

@[simp] theorem State.schedule_rng (s : State) (w : Option ScheduledSwitch) :
    (s.schedule w).rng = s.rng := rfl

@[simp] theorem State.schedule_line (s : State) (w : Option ScheduledSwitch) :
    (s.schedule w).line = s.line := rfl

@[simp] theorem State.schedule_insp (s : State) (w : Option ScheduledSwitch) :
    (s.schedule w).insp = s.insp := rfl

@[simp] theorem State.schedule_deliv (s : State) (w : Option ScheduledSwitch) :
    (s.schedule w).deliv = s.deliv := rfl

@[simp] theorem State.schedule_partBuffer (s : State) (w : Option ScheduledSwitch) :
    (s.schedule w).partBuffer = s.partBuffer := rfl

@[simp] theorem State.schedule_pending (s : State) (w : Option ScheduledSwitch) :
    (s.schedule w).pending = s.pending := rfl

@[simp] theorem State.setGates_inReset (s : State) (r : Row) :
    (s.setGates r).inReset = s.inReset := rfl

@[simp] theorem State.setGates_strapSafePin (s : State) (r : Row) :
    (s.setGates r).strapSafePin = s.strapSafePin := rfl

@[simp] theorem State.setGates_straps (s : State) (r : Row) :
    (s.setGates r).straps = s.straps := rfl

@[simp] theorem State.setGates_pos (s : State) (r : Row) :
    (s.setGates r).pos = s.pos := rfl

@[simp] theorem State.setGates_trk (s : State) (r : Row) :
    (s.setGates r).trk = s.trk := rfl

@[simp] theorem State.setGates_jobs (s : State) (r : Row) :
    (s.setGates r).jobs = s.jobs := rfl

@[simp] theorem State.setGates_tab (s : State) (r : Row) :
    (s.setGates r).tab = s.tab := rfl

@[simp] theorem State.setGates_tau (s : State) (r : Row) :
    (s.setGates r).tau = s.tau := rfl

@[simp] theorem State.setGates_pock (s : State) (r : Row) :
    (s.setGates r).pock = s.pock := rfl

@[simp] theorem State.setGates_offerSetting (s : State) (r : Row) :
    (s.setGates r).offerSetting = s.offerSetting := rfl

@[simp] theorem State.setGates_rng (s : State) (r : Row) :
    (s.setGates r).rng = s.rng := rfl

@[simp] theorem State.setGates_line (s : State) (r : Row) :
    (s.setGates r).line = s.line := rfl

@[simp] theorem State.setGates_insp (s : State) (r : Row) :
    (s.setGates r).insp = s.insp := rfl

@[simp] theorem State.setGates_deliv (s : State) (r : Row) :
    (s.setGates r).deliv = s.deliv := rfl

@[simp] theorem State.setGates_partBuffer (s : State) (r : Row) :
    (s.setGates r).partBuffer = s.partBuffer := rfl

@[simp] theorem State.setGates_pending (s : State) (r : Row) :
    (s.setGates r).pending = s.pending := rfl

/-! ### Changes of tracking state -/

@[simp] theorem State.enterState_inReset (s : State) (t : TrackingState) :
    (s.enterState t).inReset = s.inReset := by unfold State.enterState; split <;> simp

@[simp] theorem State.enterState_strapSafePin (s : State) (t : TrackingState) :
    (s.enterState t).strapSafePin = s.strapSafePin := by unfold State.enterState; split <;> simp

@[simp] theorem State.enterState_straps (s : State) (t : TrackingState) :
    (s.enterState t).straps = s.straps := by unfold State.enterState; split <;> simp

@[simp] theorem State.enterState_pos (s : State) (t : TrackingState) :
    (s.enterState t).pos = s.pos := by unfold State.enterState; split <;> simp

@[simp] theorem State.enterState_jobs (s : State) (t : TrackingState) :
    (s.enterState t).jobs = s.jobs := by unfold State.enterState; split <;> simp

@[simp] theorem State.enterState_tab (s : State) (t : TrackingState) :
    (s.enterState t).tab = s.tab := by unfold State.enterState; split <;> simp

@[simp] theorem State.enterState_tau (s : State) (t : TrackingState) :
    (s.enterState t).tau = s.tau := by unfold State.enterState; split <;> simp

@[simp] theorem State.enterState_kg (s : State) (t : TrackingState) :
    (s.enterState t).kg = s.kg := by unfold State.enterState; split <;> simp

@[simp] theorem State.enterState_pock (s : State) (t : TrackingState) :
    (s.enterState t).pock = s.pock := by unfold State.enterState; split <;> simp

@[simp] theorem State.enterState_offerSetting (s : State) (t : TrackingState) :
    (s.enterState t).offerSetting = s.offerSetting := by unfold State.enterState; split <;> simp

@[simp] theorem State.enterState_rng (s : State) (t : TrackingState) :
    (s.enterState t).rng = s.rng := by unfold State.enterState; split <;> simp

@[simp] theorem State.enterState_partBuffer (s : State) (t : TrackingState) :
    (s.enterState t).partBuffer = s.partBuffer := by unfold State.enterState; split <;> simp

@[simp] theorem State.enterState_pending (s : State) (t : TrackingState) :
    (s.enterState t).pending = s.pending := by unfold State.enterState; split <;> simp

/-- Everything that a change of tracking state does (R38). -/
theorem State.enterState_eq (s : State) (t : TrackingState) :
    s.enterState t = if s.trk.state = t then s
      else { s with
        trk := { s.trk with state := t }
        line := s.line.append ⟨.stateChange, none, none, none, some s.pos.web, [figure t.code]⟩ } := by
  unfold State.enterState; split
  · rfl
  · rw [State.raise_eq]; rfl

@[simp] theorem State.enterState_insp (s : State) (t : TrackingState) :
    (s.enterState t).insp = s.insp := by rw [State.enterState_eq]; split <;> rfl

@[simp] theorem State.enterState_deliv (s : State) (t : TrackingState) :
    (s.enterState t).deliv = s.deliv := by rw [State.enterState_eq]; split <;> rfl

@[simp] theorem State.enterState_trk (s : State) (t : TrackingState) :
    (s.enterState t).trk = { s.trk with state := t } := by
  rw [State.enterState_eq]; split
  · next h => rw [← h]
  · rfl

/-! ### The range queue -/

@[simp] theorem State.abandonRanges_inReset (s : State) :
    (s.abandonRanges).inReset = s.inReset := by
  have h : ∀ (l : List RangeEntry) (u : State), (l.foldl (fun t e => t.rangeDone e 1) u).inReset = u.inReset := by
    intro l; induction l with
    | nil => intro u; rfl
    | cons e l ih => intro u; rw [List.foldl_cons, ih, State.rangeDone_inReset]
  exact h _ _

@[simp] theorem State.abandonRanges_strapSafePin (s : State) :
    (s.abandonRanges).strapSafePin = s.strapSafePin := by
  have h : ∀ (l : List RangeEntry) (u : State), (l.foldl (fun t e => t.rangeDone e 1) u).strapSafePin = u.strapSafePin := by
    intro l; induction l with
    | nil => intro u; rfl
    | cons e l ih => intro u; rw [List.foldl_cons, ih, State.rangeDone_strapSafePin]
  exact h _ _

@[simp] theorem State.abandonRanges_straps (s : State) :
    (s.abandonRanges).straps = s.straps := by
  have h : ∀ (l : List RangeEntry) (u : State), (l.foldl (fun t e => t.rangeDone e 1) u).straps = u.straps := by
    intro l; induction l with
    | nil => intro u; rfl
    | cons e l ih => intro u; rw [List.foldl_cons, ih, State.rangeDone_straps]
  exact h _ _

@[simp] theorem State.abandonRanges_pos (s : State) :
    (s.abandonRanges).pos = s.pos := by
  have h : ∀ (l : List RangeEntry) (u : State), (l.foldl (fun t e => t.rangeDone e 1) u).pos = u.pos := by
    intro l; induction l with
    | nil => intro u; rfl
    | cons e l ih => intro u; rw [List.foldl_cons, ih, State.rangeDone_pos]
  exact h _ _

@[simp] theorem State.abandonRanges_trk (s : State) :
    (s.abandonRanges).trk = s.trk := by
  have h : ∀ (l : List RangeEntry) (u : State), (l.foldl (fun t e => t.rangeDone e 1) u).trk = u.trk := by
    intro l; induction l with
    | nil => intro u; rfl
    | cons e l ih => intro u; rw [List.foldl_cons, ih, State.rangeDone_trk]
  exact h _ _

@[simp] theorem State.abandonRanges_jobs (s : State) :
    (s.abandonRanges).jobs = s.jobs := by
  have h : ∀ (l : List RangeEntry) (u : State), (l.foldl (fun t e => t.rangeDone e 1) u).jobs = u.jobs := by
    intro l; induction l with
    | nil => intro u; rfl
    | cons e l ih => intro u; rw [List.foldl_cons, ih, State.rangeDone_jobs]
  exact h _ _

@[simp] theorem State.abandonRanges_tab (s : State) :
    (s.abandonRanges).tab = s.tab := by
  have h : ∀ (l : List RangeEntry) (u : State), (l.foldl (fun t e => t.rangeDone e 1) u).tab = u.tab := by
    intro l; induction l with
    | nil => intro u; rfl
    | cons e l ih => intro u; rw [List.foldl_cons, ih, State.rangeDone_tab]
  exact h _ _

@[simp] theorem State.abandonRanges_kg (s : State) :
    (s.abandonRanges).kg = s.kg := by
  have h : ∀ (l : List RangeEntry) (u : State), (l.foldl (fun t e => t.rangeDone e 1) u).kg = u.kg := by
    intro l; induction l with
    | nil => intro u; rfl
    | cons e l ih => intro u; rw [List.foldl_cons, ih, State.rangeDone_kg]
  exact h _ _

@[simp] theorem State.abandonRanges_pock (s : State) :
    (s.abandonRanges).pock = s.pock := by
  have h : ∀ (l : List RangeEntry) (u : State), (l.foldl (fun t e => t.rangeDone e 1) u).pock = u.pock := by
    intro l; induction l with
    | nil => intro u; rfl
    | cons e l ih => intro u; rw [List.foldl_cons, ih, State.rangeDone_pock]
  exact h _ _

@[simp] theorem State.abandonRanges_offerSetting (s : State) :
    (s.abandonRanges).offerSetting = s.offerSetting := by
  have h : ∀ (l : List RangeEntry) (u : State), (l.foldl (fun t e => t.rangeDone e 1) u).offerSetting = u.offerSetting := by
    intro l; induction l with
    | nil => intro u; rfl
    | cons e l ih => intro u; rw [List.foldl_cons, ih, State.rangeDone_offerSetting]
  exact h _ _

@[simp] theorem State.abandonRanges_partBuffer (s : State) :
    (s.abandonRanges).partBuffer = s.partBuffer := by
  have h : ∀ (l : List RangeEntry) (u : State), (l.foldl (fun t e => t.rangeDone e 1) u).partBuffer = u.partBuffer := by
    intro l; induction l with
    | nil => intro u; rfl
    | cons e l ih => intro u; rw [List.foldl_cons, ih, State.rangeDone_partBuffer]
  exact h _ _

@[simp] theorem State.abandonRanges_pending (s : State) :
    (s.abandonRanges).pending = s.pending := by
  have h : ∀ (l : List RangeEntry) (u : State), (l.foldl (fun t e => t.rangeDone e 1) u).pending = u.pending := by
    intro l; induction l with
    | nil => intro u; rfl
    | cons e l ih => intro u; rw [List.foldl_cons, ih, State.rangeDone_pending]
  exact h _ _

end Sys2Proof.Machine
end

