-- ==== Sys2Proof/Laws/Operations.lean ====
section
/-! SUPPORT. One lemma for each shared operation that says once what it can do: reset, the taking and answering of a
request, the queues, the lines, the fault record, the merge, the suspect lists, the offers and the retirements. -/

namespace Sys2Proof.Machine

/-! ### The step and the reset pin -/

theorem step_of_nil {s : State} (h : s.pending = []) : step s = .next s := by simp [step, h]

theorem step_of_cons {s : State} {i : Instr} {rest : List Instr} (h : s.pending = i :: rest) :
    step s = exec i { s with pending := rest } := by simp [step, h]

theorem State.awake_of_released {s : State} {k : State → State} (h : s.inReset = false) :
    s.awake k = .next (k s) := by simp [State.awake, h]

theorem State.awake_of_inReset {s : State} {k : State → State} (h : s.inReset = true) : s.awake k = .next s := by
  simp [State.awake, h]

/-! ### Requests -/

/-- A port with a reply put into its reply slot. -/
def State.withReply (s : State) (p : Port) (r : Option Reply) : State := s.modifyPort p fun q => { q with reply := r }

/-- An answer takes the reply slot, whatever stood in it. -/
@[simp] theorem State.withReply_answer (s : State) (p : Port) (r : Option Reply) (tag : Byte) (code : ReplyCode)
    (result : List Byte) : (s.withReply p r).answer p tag code result = s.answer p tag code result := by
  cases p <;> rfl

@[simp] theorem State.withReply_partBuffer (s : State) (p : Port) (r : Option Reply) :
    (s.withReply p r).partBuffer = s.partBuffer := by cases p <;> rfl

/-- The exchange of a port that takes the frame ends with the frame taken; the reply it drove out has left its slot. -/
theorem State.closeExchange_of_ready {s : State} {p : Port} (h : s.Ready p) :
    ∃ x r, ((s.beginExchange p).port p).exchange = some x ∧ x.driven ≠ .stall ∧
      ((s.beginExchange p).closeExchange p x).emptyPartBuffer p = (s.frameTaken p).withReply p r ∧
      ((s.beginExchange p).closeExchange p x).partBuffer = s.partBuffer := by
  obtain ⟨-, hx, hn⟩ := h
  cases he : (s.port p).exchange with
  | some x =>
    refine ⟨x, if x.driven = .reply then none else (s.port p).reply, ?_, hx x (by simp [he]), ?_, ?_⟩
    · simp [State.beginExchange, he]
    · cases p <;> simp_all [State.beginExchange, State.closeExchange, State.emptyPartBuffer, State.frameTaken,
        State.withReply, State.modifyPort, State.setPort, State.port]
    · cases p <;> simp_all [State.beginExchange, State.closeExchange, State.modifyPort, State.setPort, State.port]
  | none =>
    have hd : (s.driven p).driven ≠ .stall := by
      rcases hn he with h | h
      · cases hr : (s.port p).reply <;> simp [State.driven, h, hr]
      · obtain ⟨r, hr⟩ := Option.isSome_iff_exists.1 h
        simp [State.driven, hr]
    refine ⟨s.driven p, if (s.driven p).driven = .reply then none else (s.port p).reply, ?_, hd, ?_, ?_⟩
    · cases p <;> simp_all [State.beginExchange, State.modifyPort, State.setPort, State.port]
    · cases p <;> simp_all [State.beginExchange, State.closeExchange, State.emptyPartBuffer, State.frameTaken,
        State.withReply, State.modifyPort, State.setPort, State.port]
    · cases p <;> simp_all [State.beginExchange, State.closeExchange, State.modifyPort, State.setPort, State.port]

/-- A port that takes the frame judges the request on the state that the frame's exchange has left (R161 to R164). -/
theorem State.bring_of_ready {s : State} {p : Port} {t : Taken} (h : s.Ready p) :
    ∃ r, s.bring p t =
      if !kindPermitted (requestCode t.request) p then (s.frameTaken p).answer p t.tag .wrongPort []
      else if !formSound s.partBuffer t then (s.frameTaken p).answer p t.tag .badArg []
      else ((s.frameTaken p).withReply p r).perform p s.partBuffer t := by
  obtain ⟨x, r, hx, hd, he, hb⟩ := State.closeExchange_of_ready h
  refine ⟨r, ?_⟩
  simp only [State.bring, State.endExchangeWith, hx, hd, false_and, if_false, State.take, hb, he,
    State.withReply_answer]

/-- The command of a request that is carried out at once, on a port that takes its frame. -/
theorem State.atOnce_of_ready {s : State} {p : Port} {t : Taken} (h : s.Ready p)
    (hk : kindPermitted (requestCode t.request) p = true) (hf : formSound s.partBuffer t = true) :
    ∃ r, s.atOnce p t = .next (((s.frameTaken p).withReply p r).perform p s.partBuffer t) := by
  obtain ⟨r, hr⟩ := State.bring_of_ready (t := t) h
  exact ⟨r, by rw [State.atOnce, State.awake_of_released h.1, hr]; simp [hk, hf]⟩

/-- A request that waits in its slot and holds the grant is served after the turn has moved on. -/
theorem State.whenGranted_of_granted {s : State} {p : Port} {tag : Byte} {r : Request} {body : State → State}
    (h : s.Granted p tag r) : s.whenGranted p ⟨tag, r⟩ body = .next (body (s.portServed p)) := by
  simp [State.whenGranted, State.awake_of_released h.1.1, h.1.2, h.2]

/-- A request that waits in its slot without the grant goes on waiting. -/
theorem State.whenGranted_of_waiting {s : State} {p : Port} {tag : Byte} {r : Request} {body : State → State}
    (h : s.Waits p tag r) (hg : s.nextGrant ≠ some (.port p)) : s.whenGranted p ⟨tag, r⟩ body = .next s := by
  simp [State.whenGranted, State.awake_of_released h.1, h.2, hg]

@[simp] theorem State.frameTaken_trk (s : State) (p : Port) : (s.frameTaken p).trk = s.trk := by cases p <;> rfl
@[simp] theorem State.frameTaken_pos (s : State) (p : Port) : (s.frameTaken p).pos = s.pos := by cases p <;> rfl
@[simp] theorem State.frameTaken_jobs (s : State) (p : Port) : (s.frameTaken p).jobs = s.jobs := by cases p <;> rfl
@[simp] theorem State.frameTaken_tab (s : State) (p : Port) : (s.frameTaken p).tab = s.tab := by cases p <;> rfl
@[simp] theorem State.frameTaken_tau (s : State) (p : Port) : (s.frameTaken p).tau = s.tau := by cases p <;> rfl
@[simp] theorem State.frameTaken_kg (s : State) (p : Port) : (s.frameTaken p).kg = s.kg := by cases p <;> rfl
@[simp] theorem State.frameTaken_pock (s : State) (p : Port) : (s.frameTaken p).pock = s.pock := by cases p <;> rfl
@[simp] theorem State.frameTaken_rng (s : State) (p : Port) : (s.frameTaken p).rng = s.rng := by cases p <;> rfl
@[simp] theorem State.frameTaken_straps (s : State) (p : Port) : (s.frameTaken p).straps = s.straps := by
  cases p <;> rfl

theorem State.answer_eq_reply (s : State) (p : Port) (tag : Byte) (code : ReplyCode) (result : List Byte) :
    s.answer p tag code result = s.reply p tag code result := rfl

/-! ### The notice queues -/

/-- A notice queue never grows past its capacity (R166). -/
theorem PortState.append_length_le (q : PortState) (n : Notice) (h : q.notices.length ≤ 16) :
    (q.append n).notices.length ≤ 16 := by
  unfold PortState.append
  split <;> simp_all [Config.noticeCapacity]

/-- A notice is appended while there is room, and otherwise only sets NOTICE_LOST (R166). -/
theorem PortState.append_cases (q : PortState) (n : Notice) :
    (q.notices.length < 16 ∧ q.append n = { q with notices := q.notices ++ [n] }) ∨
      (16 ≤ q.notices.length ∧ q.append n = { q with flags := { q.flags with noticeLost := true } }) := by
  unfold PortState.append Config.noticeCapacity
  split
  · exact .inl ⟨by assumption, rfl⟩
  · exact .inr ⟨by omega, rfl⟩

@[simp] theorem PortState.append_request (q : PortState) (n : Notice) : (q.append n).request = q.request := by
  unfold PortState.append; split <;> rfl

@[simp] theorem PortState.append_reply (q : PortState) (n : Notice) : (q.append n).reply = q.reply := by
  unfold PortState.append; split <;> rfl

@[simp] theorem PortState.append_exchange (q : PortState) (n : Notice) : (q.append n).exchange = q.exchange := by
  unfold PortState.append; split <;> rfl

@[simp] theorem PortState.append_threshold (q : PortState) (n : Notice) : (q.append n).threshold = q.threshold := by
  unfold PortState.append; split <;> rfl

@[simp] theorem PortState.appendAll_nil (q : PortState) : q.appendAll [] = q := rfl

@[simp] theorem PortState.appendAll_cons (q : PortState) (n : Notice) (l : List Notice) :
    q.appendAll (n :: l) = (q.append n).appendAll l := rfl

theorem PortState.appendAll_append (q : PortState) (l m : List Notice) :
    q.appendAll (l ++ m) = (q.appendAll l).appendAll m := by simp [PortState.appendAll]

theorem PortState.appendAll_length_le (l : List Notice) : ∀ q : PortState, q.notices.length ≤ 16 →
    (q.appendAll l).notices.length ≤ 16 := by
  induction l with
  | nil => exact fun _ h => h
  | cons n l ih => exact fun q h => ih _ (q.append_length_le n h)

/-- A notice that is in a queue stays there when others join. -/
theorem PortState.mem_append_of_mem {q : PortState} {n m : Notice} (h : m ∈ q.notices) :
    m ∈ (q.append n).notices := by
  unfold PortState.append; split <;> simp [h]

/-- A notice that finds room is in the queue. -/
theorem PortState.mem_append_self {q : PortState} {n : Notice} (h : q.notices.length < 16) :
    n ∈ (q.append n).notices := by
  simp [PortState.append, Config.noticeCapacity, h]

theorem State.rangeDone_eq (s : State) (e : RangeEntry) (status : Nat) :
    s.rangeDone e status = s.setPort e.port ((s.port e.port).append (e.doneNotice status s.pos.web)) := by
  rcases e with ⟨kind⟩
  cases kind <;> rfl

/-! ### Lines -/

theorem FieldLine.release_eq_rested (l : FieldLine) : l.release = l.rested := by
  rcases l with ⟨mode, on, stored⟩
  cases mode <;> cases on <;> rfl

theorem State.gatesToDivert_eq (s : State) :
    s.gatesToDivert = { s with kg := { s.kg with gates := s.kg.gates.map (·.rested) } } := by
  simp only [State.gatesToDivert, funext FieldLine.release_eq_rested]

theorem State.releaseSeps_eq (s : State) :
    s.releaseSeps = { s with kg := { s.kg with seps := s.kg.seps.map (·.rested) } } := by
  simp only [State.releaseSeps, funext FieldLine.release_eq_rested]

theorem State.assertSep_eq (s : State) (lane : Nat) :
    s.assertSep lane = { s with kg := { s.kg with seps := s.kg.seps.modify lane (·.pulsed) } } := rfl

/-! ### Deadlines -/

/-- Entering one deadline is what the statements call entering a list of one. -/
theorem State.enterDeadline_entered (s : State) (d : Deadline) :
    DeadlinesEntered s (s.enterDeadline d) (fun _ => false) [d] := by
  unfold State.enterDeadline
  split
  · rename_i h
    have : ¬wdiff s.pos.frontier d.position < 0 := by omega
    simp [DeadlinesEntered, h, this]
  · rename_i h
    have : wdiff s.pos.frontier d.position < 0 := by omega
    simp [DeadlinesEntered, h, this]

theorem State.dropDeadlines_entered (s : State) (p : DeadlineKind → Bool) :
    DeadlinesEntered s (s.dropDeadlines p) p [] := by simp [DeadlinesEntered, State.dropDeadlines]

theorem insertReached_perm (x : Word) (d : Deadline) (l : List Deadline) : (insertReached x d l).Perm (d :: l) := by
  induction l with
  | nil => exact .refl _
  | cons e l ih =>
    simp only [insertReached]
    split
    · exact .refl _
    · exact (ih.cons e).trans (.swap d e l)

theorem insertReached_pairwise (x : Word) (d : Deadline) (l : List Deadline)
    (h : l.Pairwise fun a b => a.ahead x ≤ b.ahead x) :
    (insertReached x d l).Pairwise fun a b => a.ahead x ≤ b.ahead x := by
  induction l with
  | nil => simp [insertReached]
  | cons e l ih =>
    obtain ⟨he, hl⟩ := List.pairwise_cons.1 h
    simp only [insertReached]
    split
    · rename_i hde
      refine List.pairwise_cons.2 ⟨fun b hb => ?_, h⟩
      rcases List.mem_cons.1 hb with rfl | hb
      · exact hde
      · exact hde.trans (he b hb)
    · rename_i hde
      refine List.pairwise_cons.2 ⟨fun b hb => ?_, ih hl⟩
      rcases List.mem_cons.1 ((insertReached_perm x d l).mem_iff.1 hb) with rfl | hb
      · omega
      · exact he b hb

/-- A deadline goes in front of those at its own position. -/
theorem insertReached_filter (x y : Word) (d : Deadline) (l : List Deadline) :
    ((insertReached x d l).filter fun e => decide (e.position = y)) =
      (d :: l).filter fun e => decide (e.position = y) := by
  induction l with
  | nil => rfl
  | cons e l ih =>
    simp only [insertReached]
    split
    · rfl
    · rename_i hde
      have hne : ¬(d.position = y ∧ e.position = y) := by
        rintro ⟨hd, he⟩
        exact hde (by simp [Deadline.ahead, hd, he])
      rw [List.filter_cons, ih]
      by_cases hd : d.position = y <;> by_cases he : e.position = y <;> simp_all

theorem reachOrder_perm (x : Word) (l : List Deadline) : (reachOrder x l).Perm l := by
  induction l with
  | nil => exact .refl _
  | cons d l ih => exact (insertReached_perm x d _).trans (ih.cons d)

/-- The order in which the frontier reaches deadlines (R18), those at one position in the order of the list (log 10). -/
theorem reachOrder_reached (x : Word) (l : List Deadline) : ReachedInOrder x l (reachOrder x l) := by
  induction l with
  | nil => simp [ReachedInOrder, reachOrder]
  | cons d l ih =>
    refine ⟨insertReached_pairwise x d _ ih.1, fun e _ => ?_⟩
    show (insertReached x d (reachOrder x l)).filter _ = _
    rw [insertReached_filter, List.filter_cons, List.filter_cons]
    have : (reachOrder x l).filter (fun a => decide (a.position = e.position)) =
        l.filter fun a => decide (a.position = e.position) := by
      by_cases he : e ∈ l
      · exact ih.2 e (List.mem_append_left _ he)
      · by_cases hp : ∃ a ∈ l, a.position = e.position
        · obtain ⟨a, ha, hpa⟩ := hp
          simpa [hpa] using ih.2 a (List.mem_append_left _ ha)
        · have hl : ∀ m : List Deadline, m.Perm l → m.filter (fun a => decide (a.position = e.position)) = [] := by
            intro m hm
            refine List.filter_eq_nil_iff.2 fun a ha => ?_
            simpa using fun h => hp ⟨a, hm.mem_iff.1 ha, h⟩
          rw [hl _ (reachOrder_perm x l), hl _ (.refl _)]
    rw [this]

/-- Every deadline either stays or fires when the frontier moves (R18). -/
theorem PositionUnit.advance_partition (u : PositionUnit) (f : Word) (d : Deadline) :
    d ∈ u.deadlines ↔ d ∈ (u.advance f).deadlines ∨ (d ∈ u.deadlines ∧ 0 ≤ wdiff f d.position) := by
  simp only [PositionUnit.advance, List.mem_filter, decide_eq_true_eq]
  constructor
  · intro h
    by_cases hd : wdiff f d.position < 0
    · exact .inl ⟨h, hd⟩
    · exact .inr ⟨h, by omega⟩
  · rintro (⟨h, -⟩ | ⟨h, -⟩) <;> exact h

/-- What has fired after the frontier moves: what had fired before, and the deadlines it has reached (R18). -/
theorem PositionUnit.mem_advance_fired (u : PositionUnit) (f : Word) (d : Deadline) :
    d ∈ (u.advance f).fired ↔ d ∈ u.fired ∨ (d ∈ u.deadlines ∧ 0 ≤ wdiff f d.position) := by
  simp [PositionUnit.advance, (reachOrder_perm _ _).mem_iff]

/-- The oldest fired deadline may be handed on. -/
theorem firedDeadline?_head (d : Deadline) (rest : List Deadline) :
    firedDeadline? (d :: rest) d.kind = some d := by simp [firedDeadline?]

theorem firedDeadline?_none {l : List Deadline} {k : DeadlineKind} (h : ∀ d ∈ l, d.kind ≠ k) :
    firedDeadline? l k = none := by
  have : l.find? (·.kind = k) = none := by simpa [List.find?_eq_none] using h
  simp [firedDeadline?, this]

/-- Handing a deadline on touches the waiting events, ITRIG and the flywheel crossing only. -/
theorem State.handOn_eq (s : State) (d : Deadline) :
    s.handOn d = { s with
      pos := { s.pos with flywheelCrossing := (s.handOn d).pos.flywheelCrossing }
      tau := { s.tau with events := s.tau.events ++ d.event?.toList }
      kg := { s.kg with itrig := s.kg.itrig && decide (d.kind ≠ .triggerOff) } } := by
  rcases d with ⟨x, k⟩
  cases k <;> simp [State.handOn, State.handEvent, Deadline.event?]

/-! ### The fault record -/

theorem offeredRecord_mayBecome (r : FaultRecord) (k : FaultKind) (row : Option Word) (x : Word) :
    r.mayBecome (offeredRecord (some r) k row x) = true := by
  unfold offeredRecord FaultRecord.mayBecome
  dsimp only
  split <;> simp_all

theorem FaultRecord.mayBecome_refl (r : FaultRecord) : r.mayBecome r = true := by simp [FaultRecord.mayBecome]

/-! ### The merge -/

/-- A merge never lowers a grade, and VOID stays VOID (R80). -/
theorem mergeGrade_severity_le (g h : Grade) : g.severity ≤ (mergeGrade g h).severity := by
  cases g <;> cases h <;> decide

theorem mergeGrade_void (h : Grade) : mergeGrade .void h = .void := rfl

theorem mergeGrade_forced (g : Grade) (h : g ≠ .void) : mergeGrade g .forced = .forced := by
  cases g <;> first | rfl | exact absurd rfl h

/-! ### Stacks -/

theorem Stack.addSuspect_eq (k : Stack) (n : Word) : k.addSuspect n = k.withSuspect n := by
  unfold Stack.addSuspect Stack.withSuspect Config.suspectCapacity
  by_cases h : n ∈ k.suspects
  · simp [h]
  · by_cases h8 : k.suspects.length < 8
    · simp [h, h8, show ¬8 ≤ k.suspects.length by omega]
    · simp [h, h8, show 8 ≤ k.suspects.length by omega]

/-- A suspect list keeps to eight rows, none of them twice (R122). -/
theorem Stack.addSuspect_sound {k : Stack} (n : Word) (h : k.SuspectsSound) : (k.addSuspect n).SuspectsSound := by
  obtain ⟨hl, hd⟩ := h
  unfold Stack.addSuspect
  split
  · exact ⟨hl, hd⟩
  · split
    · rename_i hn h8
      refine ⟨by simpa [Config.suspectCapacity] using h8, ?_⟩
      refine List.nodup_append.2 ⟨hd, by simp, ?_⟩
      rintro a ha b hb rfl
      exact hn (List.mem_singleton.1 hb ▸ ha)
    · exact ⟨hl, hd⟩

theorem Stack.countLabel_eq (k : Stack) (n : Word) (minor : Bool) :
    k.countLabel n minor = k.afterLanding n minor false := by
  cases minor <;> simp [Stack.countLabel, Stack.afterLanding]

theorem nextStackId_ne_zero (i : StackId) : nextStackId i ≠ 0 := by
  unfold nextStackId
  split
  · decide
  · rename_i h
    intro h0
    apply h
    have : i = 0 - 1 := by rw [← h0]; simp
    simpa using this

/-- A stack of the lane, after a change of one lane entry. -/
theorem State.lane?_modifyLane (s : State) (lane i : Nat) (f : PocketLane → PocketLane) :
    (s.modifyLane lane f).lane? i = if lane = i then (s.lane? i).map f else s.lane? i := by
  simp only [State.modifyLane, State.lane?, List.getElem?_modify]
  split <;> simp

theorem State.modifyLane_length (s : State) (lane : Nat) (f : PocketLane → PocketLane) :
    (s.modifyLane lane f).pock.lanes.length = s.pock.lanes.length := by simp [State.modifyLane]

/-! ### The row table -/

/-- More than sixteen CUT and MISSED rows retire the oldest one, and nothing else does (R66). -/
theorem State.retain_rows (s : State) : s.retain.tab.rows = retained s.tab.rows := by
  have hs : (fun r : Row => r.state.settled) = fun r => decide (r.state = .cut ∨ r.state = .missed) := by
    funext r
    cases r.state <;> simp [RowState.settled]
  unfold State.retain retained Config.retainedRows
  rw [hs]
  split
  · unfold State.retireOldest
    cases h : s.tab.rows <;> simp [h]
  · rfl

/-- A creation that finds room keeps the rows that `keptRows` names. -/
theorem State.room?_rows {s t : State} (h : s.room? = some t) : t.tab.rows = s.keptRows := by
  unfold State.room? Config.tableCapacity at h
  unfold State.keptRows
  split at h
  · rename_i hl
    cases h
    simp [hl]
  · rename_i hl
    simp only [hl, if_false]
    split at h
    · rename_i hr
      rw [hr] at hl
      simp at hl
    · rename_i r rest hr
      split at h
      · cases h
        simp [State.retireOldest, hr]
      · cases h

theorem State.modifyRow_numbers (s : State) (n : Word) (f : Row → Row) (hf : ∀ r, (f r).number = r.number) :
    (s.modifyRow n f).tab.rows.map (·.number) = s.tab.rows.map (·.number) := by
  simp only [State.modifyRow, List.map_map]
  apply List.map_congr_left
  intro r _
  simp only [Function.comp]
  split <;> simp [hf]

end Sys2Proof.Machine
end

