-- ==== Sys2Proof/WellFormed.lean ====
section
/-! DEFINITION. Which commands the part's pins and frames can carry. The widths of most operands are in their types. -/

namespace Sys2Proof

/-- A lane has a gate, a separator and a pocket only below 6 (spec/00_scope.md, "Terms"). -/
def Instr.laneExists : Instr → Bool
  | .offerExpiry lane => decide (lane < Config.lineCount)
  | .backoffExpiry lane => decide (lane < Config.lineCount)
  | _ => true

/-- The grade list of a GRADE stands in bytes 8 to 15 of its frame (R174). -/
def Instr.gradesFitFrame : Instr → Bool
  | .grade _ _ _ _ grades => decide (grades.length ≤ 8)
  | _ => true

/-- The command is one that the pins, the links or the block's own units can produce. -/
def Instr.wellFormed (i : Instr) : Bool := i.laneExists && i.gradesFitFrame

end Sys2Proof
end

