-- ==== Sys2Proof/Tests/Slice0.lean ====
section
/-! SUPPORT. Tests of the model against the manual's worked cases, the refusals of WellFormed, and for every obligation
with hypotheses a concrete state that meets them, clause by clause at the ends of their ranges. -/

namespace Sys2Proof.Tests

open Sys2Proof.Machine

/- The theorems of this file are elaborated one after another: each one's kernel evaluation waits for the declarations
before it, and forty of them waiting at once take a thread each. -/
set_option Elab.async false

/-! ### WellFormed refuses each ill-formed term -/

theorem test_wellFormed_lane : (Instr.offerExpiry 6).wellFormed = false ∧ (Instr.backoffExpiry 6).wellFormed = false ∧
    (Instr.offerExpiry 5).wellFormed = true ∧ (Instr.backoffExpiry 5).wellFormed = true := by decide

theorem test_wellFormed_grades : (Instr.grade .inspection 0 1 255 (List.replicate 9 1)).wellFormed = false ∧
    (Instr.grade .inspection 0 1 255 (List.replicate 8 1)).wellFormed = true := by decide

/-- No row of the table has bits, so no word spells a command (log 26). -/
theorem test_no_word_spells_a_command : decodeTableWord 8 5 = none ∧ State.reset.withFetchWord 8 5 = State.reset := by
  decide

/-! ### States of the worked case (spec/02, "Worked case: one row from resynchronisation to its cut") -/

/-- The state that a command answers. -/
def after (r : Result) : Option State :=
  match r with
  | .next t => some t
  | .fault _ => none
  | .refused _ => none

/-- The job of the worked case; it has two lanes. -/
def job : Job := ⟨12000, 9577, 3200, 2400, 600, 3, 10, 3, 3, 4, 1000, .trust, .stack, .divert⟩

/-- A lane entry. -/
def entry (g : Grade) (d : Option Disposition) : RowLane := ⟨g, d, none, none, false⟩

/-- Row 1,207 of the worked case. -/
def row1207 (st : RowState) (lanes : List RowLane) : Row :=
  ⟨1207, .resync, false, false, false, false, 1, 4294900000, 83154, 382973, 380573, st, lanes, none⟩

/-- A travelling row with both lanes GOOD. -/
def travelling : Row := row1207 .travelling [entry .good none, entry .pending none]

/-- A committed row with both lanes STACK. -/
def committed : Row := row1207 .committed [entry .good (some .stack), entry .good (some .stack)]

/-- The tracker armed on slot 1 in the given state; slot 2 has the same geometry and another target. -/
def base (st : TrackingState) : State :=
  { State.reset with
    straps := ⟨false, false, 2⟩
    pock := ⟨[.atReset, .atReset], 1⟩
    jobs := ⟨[none, some job, some { job with target := 12 }, none], some 1, none, none⟩
    trk := ⟨st, some 1, 12036, 450269, 450269, 150450, 0, 0, 4294900000, none⟩
    tab := ⟨[], 1207⟩ }

/-- The state with these rows, the newest of them row 1,207. -/
def withRows (s : State) (rows : List Row) : State := { s with tab := ⟨rows, 1208⟩ }

/-- The state with the web and the frontier at a position. -/
def at_ (s : State) (x : Word) : State := { s with pos := { s.pos with web := x, frontier := x } }

/-- The state with one tracking event waiting. -/
def waiting (s : State) (e : TrackingEvent) : State := { s with tau := { s.tau with events := [e] } }

/-- The state with a request that waits in a port's slot, that port first in turn. -/
def asked (s : State) (p : Port) (r : Request) : State :=
  { s.setPort p { s.port p with request := some ⟨41, r⟩ } with tau := { s.tau with pointer := p } }

/-- A stack that has counted labels. -/
def stack (id : StackId) (lane count : Nat) : Stack :=
  ⟨id, lane, 1, 10, count, 0, some 1, some 1, false, false, false, false, [], false, .opened, 0, none⟩

/-- A held stack in an offer state. -/
def held (id : StackId) (lane : Nat) (st : StackState) (declines : Nat) (remaining : Option Nat) : Stack :=
  { stack id lane 10 with state := st, declines := declines, remaining := remaining }

/-- The state with the stacks of lane 0. -/
def withStacks (s : State) (o h : Option Stack) : State :=
  { s with pock := ⟨[{ PocketLane.atReset with openStack := o, heldStack := h }, .atReset], 9⟩ }

/-- `withStacks` with an open stack of 9 and a held stack in lane 0, the lane blocked by each reason asked for. -/
def blockedLane (s : State) (overflow closing : Bool) : State :=
  let l := { PocketLane.atReset with openStack := some (stack 1 0 9), heldStack := some (held 2 0 .offered 0 (some 8)) }
  { s with pock := ⟨[{ l with overflow := overflow, closing := closing, deferShort := closing }, .atReset], 9⟩ }

/-! ### The manual's arithmetic -/

/-- R22's examples of the rounding, k = 3. -/
theorem test_filter_rounding : [65, 12, 11, -12, 3].map (filterStep 3) = [8, 2, 1, -2, 0] := by decide

/-- The worked case: O_sync, Oi and h from Rm = 12,036. -/
theorem test_offsets_worked_case : pathCounts 9577 12036 = 450269 ∧ pathCounts 3200 12036 = 150450 ∧
    windowHalf 12036 3 = 1504 ∧ guardDistance 12036 = 6018 := by decide

/-- The worked case: the filter at row 1,209. -/
theorem test_filter_worked_case : filteredRm job 12036 12101 = 12044 := by decide

/-- The worked case: the adaptation by a cut error of 37. -/
theorem test_adaptation_worked_case : adaptedOffset 450269 450269 37 12000 = 450278 ∧ filteredEf 0 37 = 5 := by decide

/-! ### The web -/

theorem test_edge_a_counts_up : (after (exec (.encoderEdge .a) State.reset)).map (·.pos.web) = some 1 := by decide

theorem test_edge_b_counts_down : (after (exec (.encoderEdge .b) State.reset)).map (·.pos.web) = some 4294967295 := by
  decide

/-- A count down leaves the frontier, and an edge of MARK there is ignored. -/
theorem test_mark_behind_frontier : ((after (exec (.encoderEdge .b) State.reset)).bind fun t =>
    after (exec .markEdge t)).map (fun t => (t.pos.frontier, t.tau.events)) = some (0, []) := by decide

/-- The deadline of row 1,207's trigger fires on the edge that takes the frontier to it, and is handed on. -/
theorem test_trigger_deadline : ((after (exec (.encoderEdge .a)
      { at_ (base .track) 83153 with pos := { State.reset.pos with
        web := 83153, frontier := 83153, deadlines := [⟨83154, .trigger 1207⟩] } })).bind fun t =>
    after (exec (.triggerDeadline 1207) t)).map (fun t => (t.pos.fired, t.tau.events)) =
      some ([], [.trigger 1207]) := by decide

/-- R17, R18: deadlines that one jump of the frontier crosses fire in the order in which it reaches them. -/
theorem test_jump_fires_in_position_order :
    (({ State.reset.pos with frontier := 10, deadlines := [⟨30, .commit 1⟩, ⟨20, .trigger 2⟩, ⟨90, .flywheel⟩] } :
      PositionUnit).advance 40).fired = [⟨20, .trigger 2⟩, ⟨30, .commit 1⟩] := by decide

theorem test_encoder_fault : (after (exec .encoderFault (base .track))).map (fun t => (t.trk.state, t.pos.web)) =
    some (.fault, 0) := by decide

/-! ### Rows -/

/-- The worked case: the resynchronisation at 4,294,900,000. -/
theorem test_resync_worked_case : (after (exec .rowCreation
      (waiting (at_ (base .hunt) 4294900000) (.mark 4294900000 true)))).map (fun t =>
      (t.trk.state, t.tab.rows.map fun r => (r.trigger, r.arrival, r.commit))) =
    some (.track, [(83154, 382973, 380573)]) := by decide

/-- The worked case: the deadlines after the resynchronisation. -/
theorem test_resync_deadlines : (after (exec .rowCreation
      (waiting (at_ (base .hunt) 4294900000) (.mark 4294900000 true)))).map (·.pos.deadlines) =
    some [⟨83154, .trigger 1207⟩, ⟨380573, .commit 1207⟩, ⟨383573, .missedCut 1207⟩, ⟨4294913540, .flywheel⟩] := by
  decide

/-- The worked case: row 1,208, whose predecessor is a RESYNC row, leaves Rm. -/
theorem test_sensed_worked_case : (after (exec .rowCreation (waiting (at_ (withRows (base .track) [travelling])
      4294912040) (.mark 4294912040 true)))).map (fun t =>
      (t.trk.rm, (t.tab.rows.drop 1).map fun r => (r.trigger, r.arrival, r.commit))) =
    some (12036, [(95194, 395013, 392613)]) := by decide

/-- "A missing mark": the flywheel row 1,208. -/
theorem test_flywheel_worked_case : (after (exec .rowCreation (waiting
      { withRows (base .track) [travelling] with
        pos := { (at_ (base .track) 4294913540).pos with flywheelCrossing := some 4294913540 } }
      (.flywheel 4294913540)))).map (fun t =>
      (t.trk.miss, (t.tab.rows.drop 1).map fun r => (r.pm, r.arrival), t.pos.deadlines.getLast?)) =
    some (1, [(4294912036, 395009)], some ⟨4294925576, .flywheel⟩) := by decide

/-- "A guarded resynchronisation": the arrival moves to 385,518 and every active lane is FORCED. -/
theorem test_guard_worked_case : (after (exec .rowCreation (waiting (withRows (at_ (base .hunt) 4294900000)
      [{ travelling with number := 1206, arrival := 379500 }]) (.mark 4294900000 true)))).any (fun t =>
      (t.tab.rows.drop 1).all fun r => r.trigger == 85699 && r.arrival == 385518 && r.commit == 383118 && r.clamped &&
        r.lanes.map (·.grade) == [.forced, .forced]) = true := by decide

/-- A mark one count before the near edge of the window is spurious. -/
theorem test_spurious_mark : (after (exec .rowCreation (waiting (withRows (base .track) [travelling])
      (.mark 4294910531 true)))).map (fun t => (t.line.flags.spuriousMark, t.tab.rows.length)) = some (true, 1) := by
  decide

/-! ### Commits and cuts -/

/-- Line 6 and line 4 of R85 under the policies STACK. -/
theorem test_commit_stacks : (after (exec .commit (waiting (withStacks (withRows (base .track) [travelling])
      (some (stack 1 0 0)) none) (.commit 1207)))).map (fun t =>
      (t.tab.rows.map fun r => r.lanes.map fun c => (c.disposition, c.reason), t.kg.gates.map (·.on))) =
    some ([[(some .stack, none), (some .divert, some .blocked)]], [true, false, false, false, false, false]) := by
  decide

/-- "A missed cut" of the worked run: under the debt a GOOD label is diverted with reason DOUBLE. -/
theorem test_commit_under_debt : (after (exec .commit (waiting
      { withRows (base .track) [travelling] with kg := { State.reset.kg with cutDebt := true } }
      (.commit 1207)))).map (fun t =>
      (t.kg.cutDebt, t.tab.rows.map fun r => (r.double, r.lanes.map (·.reason)))) =
    some (false, [(true, [some .double, some .double])]) := by decide

/-- The worked case: the matched cut at 383,010. -/
theorem test_cut_worked_case : (after (exec .knifeEvent (waiting (withRows (base .track) [committed])
      (.knife 383010)))).any (fun t =>
      t.trk.offset == 450278 && t.trk.ef == 5 &&
        t.tab.rows.all fun r => r.state == .cut && r.cutError == some 37 && !r.misregistered) = true := by decide

/-- "An early knife stroke": the misregistered cut at 381,900. -/
theorem test_early_stroke : (after (exec .knifeEvent (waiting (withRows (base .track) [committed])
      (.knife 381900)))).any (fun t =>
      t.trk.offset == 450269 && t.trk.ef == 0 &&
        t.tab.rows.all fun r => r.state == .cut && r.cutError == some (-1073) && r.misregistered) = true := by decide

/-- "Two stacks complete": the tenth label completes a stack, which is offered, and a new one opens. -/
theorem test_cut_completes_stack : (after (exec .knifeEvent (waiting (withStacks (withRows (base .track) [committed])
      (some (stack 1 0 9)) none) (.knife 382973)))).any (fun t =>
      ((t.heldStack? 0).any fun k => k.id == 1 && k.count == 10 && k.state == .offered && k.remaining == some 64) &&
        ((t.openStack? 0).any fun k => k.id == 9 && k.count == 0) &&
        t.kg.seps.map (·.on) == [true, false, false, false, false, false]) = true := by decide

theorem test_missed_cut : (after (exec .missedCutEvent (waiting (withRows (base .track) [committed])
      (.missedCut 1207 383573)))).map (fun t =>
      (t.kg.cutDebt, t.tab.rows.map (·.state), t.pock.lanes.map (·.diverted), t.trk.fault.map (·.position))) =
    some (true, [.missed], [1, 1], some 383573) := by decide

theorem test_orphan_cut : (after (exec .knifeEvent (waiting (base .track) (.knife 5)))).map (·.kg.orphanCuts) =
    some 1 := by decide

theorem test_reversal_forcing : (after (exec .reversalForcing (waiting (withRows (base .hunt) [committed])
      .forcing))).map (fun t => (t.tab.rows.map fun r => r.lanes.map (·.grade), t.pock.lanes.map (·.lateRejects))) =
    some ([[.forced, .forced]], [1, 1]) := by decide

theorem test_trigger_event : (after (exec .triggerEvent (waiting (withRows (base .track) [travelling])
      (.trigger 1207)))).map (fun t => (t.kg.itrig, t.kg.lastTriggered)) = some (true, some (1207, 83154)) := by decide

/-- "Two declines and an accept": the second decline waits for four cuts, and the last of them offers the stack again. -/
theorem test_decline_and_backoff :
    ((after (exec (.decline .delivery 41 2) (withStacks (base .track) none
        (some (held 2 0 .offered 1 (some 8)))))).bind (·.heldStack? 0)).map (fun k =>
      (k.state, k.declines, k.remaining)) = some (.backoff, 2, some 4) ∧
    ((after (exec .knifeEvent (waiting (withStacks (base .track) none
        (some (held 2 0 .backoff 1 (some 1)))) (.knife 5)))).bind (·.heldStack? 0)).map (fun k =>
      (k.state, k.declines, k.remaining)) = some (.offered, 1, some 64) := by decide

theorem test_sixth_decline_strands : ((after (exec (.offerExpiry 0) (withStacks (base .track) none
      (some (held 2 0 .offered 5 (some 0)))))).bind (·.heldStack? 0)).map (fun k => (k.state, k.declines, k.remaining)) =
    some (.stranded, 6, none) := by decide

theorem test_backoff_expiry : ((after (exec (.backoffExpiry 0) (withStacks (base .track) none
      (some (held 2 0 .backoff 5 (some 0)))))).bind (·.heldStack? 0)).map (fun k => (k.state, k.declines, k.remaining)) =
    some (.offered, 5, some 64) := by decide

/-! ### Requests -/

/-- The rest of the worked job. -/
def job12 : JobRest := ⟨600, 1000, 10, 3, 3, 4, 3, 4⟩

/-- The first part of the worked job, for a slot and a gate lead. -/
def part (slot : Byte) (lead : BitVec 24) : JobPart := ⟨slot, 12000, 9577, 3200, lead⟩

/-- "ARM" of the worked run, with its geometry: O = 37,500, Oi = 15,000, stacks 1 and 2 open. -/
theorem test_arm_worked_run : (after (exec (.arm .line 41 0) { base .idle with
      trk := .atReset, jobs := ⟨[some { job with lk := 800, li := 320 }, none, none, none], none, none, none⟩ })).any
    (fun t =>
      t.trk.rm == 12000 && t.trk.offset == 37500 && t.trk.oi == 15000 && t.trk.state == .hunt &&
        (t.pock.lanes.map fun l => l.openStack.map (·.id)) == [some 1, some 2] && t.pock.nextId == 3) = true := by decide

/-- "A late grade on row 2": the reply names COMMITTED and the late lane 1. -/
theorem test_late_grade : (after (exec (.grade .inspection 41 1207 2 [3]) (asked (withRows (base .track) [committed])
      .inspection (.grade 1207 2 [3])))).map (fun t =>
      (t.insp.reply.map (·.result), t.pock.lanes.map (·.lateRejects), t.tab.rows.map fun r => r.lanes.map (·.late))) =
    some (some [0, 1, 2], [0, 1], [[false, true]]) := by decide

theorem test_accept_names_count : (after (exec (.accept .delivery 41 2 (some 9)) (withStacks (base .track) none
      (some (held 2 0 .backoff 1 (some 4)))))).map (fun t =>
      (t.deliv.reply.map (·.result), t.heldStack? 0, t.line.notices.map (·.kind))) =
    some (some [10, 0, 0, 1], none, [.countMismatch]) := by decide

theorem test_offer_window_clamped : (after (exec (.setOfferWindow .delivery 41 300)
      (base .track))).map (fun t => (t.offerSetting, t.deliv.reply.map (·.code))) =
    some (255, some .doneClamped) := by decide

/-- A FORCE range of one row on lane 0 finishes at its first step. -/
theorem test_range_step : (after (exec .rangeStep { withRows (base .track) [travelling] with
      rng := ⟨[⟨.force, .line, 7, 1207, 1, 1, 1207, 0, 0, 0, 0, 0, 0, 0, 0⟩], 8⟩ })).map (fun t =>
      (t.tab.rows.map fun r => r.lanes.map (·.grade), t.line.notices.map (·.values), t.rng.queue.length)) =
    some ([[.forced, .pending]], [[7, 0, 1, 1, 0, 0]], 0) := by decide

/-- Exchange 2 of the example of spec/10: a POLL that meets a STALL takes nothing and sets no flag. -/
theorem test_poll_meets_stall :
    (after (exec (.poll .inspection 42) (asked (base .track) .inspection (.grade 1207 2 [3])))).map (fun t =>
      (t.insp.flags.stalled, t.insp.request.map (·.tag))) = some (false, some 41) := by decide

/-- A JOB_LOAD whose gate lead is Rn / 4 + 1 names field 4. -/
theorem test_job_load_names_field : (after (exec (.jobLoad .line 41 (part 3 3001) job12)
      { base .track with partBuffer := some ⟨41, part 3 3001⟩ })).map (fun t =>
      (t.line.reply.map fun r => (r.code, r.result), t.partBuffer)) = some (some (.badArg, [4]), none) := by decide

/-- R164: a second JOB_LOAD part is refused with BAD_ARG where the buffer is empty or holds the part of another tag. -/
theorem test_job_load_without_first_part : ∀ held ∈ [none, some ⟨40, part 3 2400⟩],
    (after (exec (.jobLoad .line 41 (part 3 2400) job12) { base .track with partBuffer := held })).map (fun t =>
      (t.line.reply.map fun r => (r.code, r.result), t.jobs.slots[3]?, t.partBuffer)) =
    some (some (.badArg, []), some none, none) := by decide

theorem test_line_mode_drives_stored_level : (after (exec (.lineMode .line 41 1 0 1)
      { base .track with kg := { State.reset.kg with seps := [⟨.functional, false, true⟩] } })).map
      (fun t => t.kg.seps.head?.map (·.on)) =
    some (some true) := by decide

/-- R163: a RESET_TRACKING frame is carried out when the select rises, and its reply is driven out by the next exchange. -/
theorem test_select_rise_carries_out :
    ((after (exec (.selectFall .line) (base .track))).bind fun t =>
      after (exec (.selectRise .line (bitsOf (18 :: 41 :: List.replicate 14 0))) t)).map (fun t =>
      (t.trk.state, t.line.request, t.line.reply.map fun r => (r.code, r.tag))) =
    some (.idle, none, some (.done, 41)) := by decide

/-- R163: a READ_STATUS frame waits in the request slot, and the next exchange drives out STALL. -/
theorem test_select_rise_of_tau_request_waits :
    (((after (exec (.selectFall .line) (base .track))).bind fun t =>
      after (exec (.selectRise .line (bitsOf (6 :: 41 :: List.replicate 14 0))) t)).bind fun t =>
      after (exec (.selectFall .line) t)).map (fun t =>
      (t.line.request, t.line.exchange.map fun x => (x.driven, x.out.tag))) =
    some (some ⟨41, .readStatus 0⟩, some (.stall, 41)) := by decide

/-- A GRADE frame in bytes: the request of R174, with row 1,207, lane 1 and REJECT. -/
theorem test_grade_frame : requestOf [26, 41, 0xb7, 0x04, 0, 0, 2, 1, 3, 0, 0, 0, 0, 0, 0, 0] =
    some (.grade 1207 2 [3]) := by decide

/-! ### Witnesses: the hypotheses of every obligation are met, clause by clause -/

/-- A port without an exchange and without a waiting request takes a frame. -/
theorem ready_free {s : State} {p : Port} (h : s.inReset = false) (he : (s.port p).exchange = none)
    (hr : (s.port p).request = none) : s.Ready p := ⟨h, by simp [he], fun _ => .inl hr⟩

/-- With no event and no range step waiting, a request in its slot holds the grant. -/
theorem granted_asked {s : State} {p : Port} {r : Request} (h : s.inReset = false) (he : s.tau.events = [])
    (hr : s.rangeReady = false) (hg : needsGrant r = true) : (asked s p r).Granted p 41 r := by
  refine ⟨⟨by cases p <;> exact h, by cases p <;> rfl⟩, ?_⟩
  cases p <;>
    simp_all [asked, State.nextGrant, State.portInTurn?, State.portWaits, State.port, State.setPort, State.rangeReady]

theorem witness_EveryCommandAnswersNext : Instr.markEdge.port? ≠ some .line ∧
    (Instr.disarm .line 41).port? ≠ some .delivery ∧ ∀ straps a b, Instr.markEdge ≠ .resetNReleased straps a b :=
  ⟨by decide, by decide, fun _ _ _ => nofun⟩

/-- Rows `n`, `n + 1`, … in the given states. -/
def rowsFrom (n : Nat) (l : List RowState) : List Row :=
  l.mapIdx fun i st => { row1207 st [entry .good none] with number := BitVec.ofNat 32 (n + i) }

theorem witness_ResetPinDrivesOutputsAndState : ({ State.reset with inReset := true } : State).inReset = true ∧
    Instr.markEdge ≠ .resetNAsserted true ∧ Instr.markEdge ≠ .resetNAsserted false ∧
    ∀ straps a b, Instr.markEdge ≠ .resetNReleased straps a b :=
  ⟨rfl, by decide +kernel, by decide +kernel, fun _ _ _ => nofun⟩

/-- Each of the four legal edges counts up or down from a reachable joint state. -/
theorem witness_LegalEdgeMovesWebOneCount : State.reset.inReset = false ∧
    (after (exec (.encoderEdge .a) State.reset)).any (fun t => decide (((State.reset.pos.encA, State.reset.pos.encB),
      (t.pos.encA, t.pos.encB)) ∈ (upSequence false).zip (upSequence false).tail)) = true ∧
    (after (exec (.encoderEdge .b) State.reset)).any (fun t => decide (((t.pos.encA, t.pos.encB),
      (State.reset.pos.encA, State.reset.pos.encB)) ∈ (upSequence false).zip (upSequence false).tail)) = true := by
  decide +kernel

/-- The frontier follows an edge up and stays at an edge down; a mark edge and a granted READ_STATUS keep it. -/
theorem witness_FrontierFollowsWeb :
    (after (exec (.encoderEdge .a) State.reset)).any (fun t => decide (0 < wdiff t.pos.web State.reset.pos.frontier)) =
      true ∧
    (after (exec (.encoderEdge .b) State.reset)).any (fun t => decide (wdiff t.pos.web State.reset.pos.frontier ≤ 0)) =
      true ∧
    Instr.markEdge ≠ .encoderEdge .a ∧ Instr.markEdge ≠ .encoderEdge .b ∧
    (asked (base .track) .line (.readStatus 1)).Granted .line 41 (.readStatus 1) := by decide +kernel

/-- A slot armed in TRACK and a backward travel past the tolerance with the check armed, so that the edge hands a reversal on;
the same without the check; no slot armed. A deadline that the edge crosses and one that has fired, of each kind. -/
theorem witness_EdgeFiresAndHandsOnDeadlines :
    (∀ armedCheck,
      let s : State := { base .track with pos := { State.reset.pos with
        web := 4294966296, revArmed := armedCheck, fired := [⟨3, .flywheel⟩] } }
      s.inReset = false ∧ s.trk.armed = some 1 ∧ (s.job 1).tolerance = 1000 ∧
      (after (exec (.encoderEdge .b) s)).any (fun t => decide (1000 < wdiff t.pos.frontier t.pos.web)) = true) ∧
    (after (exec (.encoderEdge .a) { base .track with pos := { State.reset.pos with
      deadlines := [⟨1, .commit 7⟩] } })).any (fun t => decide (t.pos.frontier ≠ 0 ∧ 0 ≤ wdiff t.pos.frontier 1)) =
      true ∧
    State.reset.inReset = false ∧ State.reset.trk.armed = none ∧
    (∀ d ∈ ([⟨3, .flywheel⟩, ⟨3, .trigger 7⟩, ⟨3, .commit 7⟩, ⟨3, .missedCut 7⟩, ⟨3, .triggerOff⟩] : List Deadline),
      ({ State.reset with pos := { State.reset.pos with fired := [d] } } : State).pos.fired = [d]) ∧
    (∀ d ∈ State.reset.pos.fired, d.kind ≠ .flywheel ∧ d.kind ≠ .triggerOff ∧ d.kind ≠ .trigger 7) := by decide +kernel

/-- A backward travel of exactly the tolerance after the edge, and one count past it, in each state with a slot armed. -/
theorem witness_ReversalReportedOncePastTolerance :
    (∀ st web armedCheck,
      let s : State := { base st with pos := { State.reset.pos with web := web, revArmed := armedCheck } }
      s.inReset = false ∧ s.trk.armed = some 1 ∧ s.pos.fired = [] ∧ s.trk.state = st ∧ s.pos.revArmed = armedCheck ∧
      (s.job 1).tolerance = 1000) ∧
    wdiff 0 ((4294966297 : Word) - 1) = 1000 ∧ wdiff 0 ((4294966296 : Word) - 1) = 1001 :=
  ⟨fun _ _ _ => ⟨rfl, rfl, rfl, rfl, rfl, rfl⟩, by decide, by decide⟩

/-- The tracker with a full table of rows that are not settled. -/
def full (st : TrackingState) (e : TrackingEvent) : State :=
  waiting { base st with
    pos := { State.reset.pos with flywheelCrossing := some 7 }, tab := ⟨List.replicate 512 travelling, 1719⟩ } e

/-- A mark in HUNT, a mark at the near edge of the window in TRACK and a flywheel crossing find no room. -/
theorem witness_FatalFaultsEnterFault :
    (base .track).inReset = false ∧ (base .track).trk.state ≠ .fault ∧ (base .fault).trk.state = .fault ∧
    (∀ st e, (full st e).EventFirst e [] ∧ (full st e).trk.state = st ∧ (full st e).trk.armed = some 1 ∧
      ¬(full st e).HasRoom ∧ (full st e).pos.flywheelCrossing = some 7 ∧
      ((full st e).trk.rm : Int) - ((full st e).trk.rm >>> ((full st e).job 1).j : Nat) ≤
        wdiff 4294910532 (full st e).trk.pmLast) :=
  ⟨rfl, by decide, rfl, fun st e => ⟨⟨rfl, rfl⟩, rfl, rfl, by
    have h : (full st e).tab.rows = travelling :: List.replicate 511 travelling := rfl
    rw [State.HasRoom, h, List.length_cons, List.length_replicate]
    decide, rfl, show (12036 : Int) - (12036 >>> 3 : Nat) ≤ wdiff 4294910532 4294900000 by decide⟩⟩

theorem witness_FaultRecordKeepsMostSevere :
    (after (step { base .track with pending := [.encoderFault] })).isSome = true ∧
    (offeredRecord none .missedCut (some 3) 70100).kind = .missedCut ∧
    (∀ p tag, some Instr.encoderFault ≠ some (.faultClear p tag)) ∧
    (∀ p bits, some Instr.encoderFault ≠ some (.selectRise p bits)) ∧
    (frameByte (clockedBytes (bitsOf (18 :: List.replicate 15 0))) 0 = 18 ∧ (18 : Byte) ≠ 19) ∧
    ∀ straps a b, some Instr.encoderFault ≠ some (.resetNReleased straps a b) :=
  ⟨by decide +kernel, rfl, fun _ _ => nofun, fun _ _ => nofun, by decide +kernel, fun _ _ _ => nofun⟩

theorem witness_CapturesBehindFrontierIgnored : State.reset.inReset = false ∧
    wdiff (4294967295 : Word) 0 < 0 ∧ 0 ≤ wdiff (0 : Word) 0 := by decide +kernel

theorem witness_MarkInHuntResynchronises :
    let s := waiting (at_ (base .hunt) 4294900000) (.mark 4294900000 true)
    s.EventFirst (.mark 4294900000 true) [] ∧ s.trk.state = .hunt ∧ s.trk.armed = some 1 ∧ s.HasRoom := by decide +kernel

/-- The near edge of the window is at 10,532 counts, and the filter runs after a SENSED row. -/
theorem witness_MarkInTrackJudgedByWindow :
    (let s := waiting (withRows (base .track) [{ travelling with origin := .sensed }]) (.mark 4294910532 true);
      s.EventFirst (.mark 4294910532 true) [] ∧ s.trk.state = .track ∧ s.trk.armed = some 1 ∧ s.HasRoom ∧
      (s.trk.rm : Int) - (s.trk.rm >>> (s.job 1).j : Nat) ≤ wdiff 4294910532 s.trk.pmLast ∧
      s.keptRows.getLast?.map (·.origin) = some .sensed) ∧
    (let s := waiting (withRows (base .track) [travelling]) (.mark 4294910531 true);
      s.EventFirst (.mark 4294910531 true) [] ∧
      wdiff 4294910531 s.trk.pmLast < (s.trk.rm : Int) - (s.trk.rm >>> (s.job 1).j : Nat)) ∧
    (waiting (base .drain) (.mark 5 true)).EventFirst (.mark 5 true) [] ∧
    (waiting (base .track) (.mark 5 false)).EventFirst (.mark 5 false) [] := by decide +kernel

/-- At the miss limit and below it; a crossing that was superseded. -/
theorem witness_FlywheelCrossingCreatesRow :
    (∀ miss ∈ [2, 3],
      let s : State := waiting { base .track with
        trk := { (base .track).trk with miss := miss }
        pos := { State.reset.pos with flywheelCrossing := some 7 } } (.flywheel 7)
      s.EventFirst (.flywheel 7) [] ∧ s.trk.armed = some 1 ∧ s.trk.state = .track ∧
      s.pos.flywheelCrossing = some 7 ∧ s.HasRoom ∧
      ((s.job (s.creationSlot 1)).missLimit ≤ s.trk.miss + 1 ↔ miss = 3)) ∧
    (waiting (base .track) (.flywheel 7)).EventFirst (.flywheel 7) [] ∧
    (waiting (base .track) (.flywheel 7)).pos.flywheelCrossing ≠ some 7 := by decide +kernel

theorem witness_TriggerEventStartsPulse :
    (waiting (base .track) (.trigger 1207)).EventFirst (.trigger 1207) [] ∧
    (waiting (base .track) (.trigger 1207)).row? 1207 = none ∧
    (waiting (withRows (base .track) [travelling]) (.trigger 1207)).row? 1207 = some travelling := by decide +kernel

theorem witness_CommitFollowsDispositionList :
    let s := waiting (withRows (base .track) [travelling]) (.commit 1207)
    s.EventFirst (.commit 1207) [] ∧ s.row? 1207 = some travelling ∧ travelling.state = .travelling ∧
      s.trk.state ≠ .fault := by decide +kernel

/-- A full projection behind a held stack, one label short of it, and no held stack, with a carried switch of another slot and
with none; a lane that is blocked, by CLOSING with the projection full. -/
theorem witness_CommitJudgesStackCandidates :
    (∀ l ∈ [(some (stack 1 0 9), some (held 2 0 .offered 0 (some 8))),
        (some (stack 1 0 8), some (held 2 0 .offered 0 (some 8))), (some (stack 1 0 9), none)],
      ∀ carried ∈ [none, some ⟨1, 2, 1208⟩],
      let s : State := { waiting (withStacks (withRows (base .track) [travelling]) l.1 l.2) (.commit 1207) with
        jobs := { (base .track).jobs with carried := carried } }
      s.EventFirst (.commit 1207) [] ∧ s.row? 1207 = some travelling ∧ s.trk.state ≠ .fault ∧
      (∀ c ∈ s.jobs.carried, travelling.slot ≠ c.new) ∧ (entry .good none).spared = true ∧ s.kg.cutDebt = false ∧
      s.lane? 0 = some { PocketLane.atReset with openStack := l.1, heldStack := l.2 }) ∧
    (let s := blockedLane (waiting (withRows (base .track) [travelling]) (.commit 1207)) false true;
      s.EventFirst (.commit 1207) [] ∧ s.row? 1207 = some travelling ∧ (∀ c ∈ s.jobs.carried, travelling.slot ≠ c.new) ∧
      (s.lane? 0).any (fun l => l.closing && !l.overflow && l.heldStack.isSome) = true ∧
      s.line.notices.length + travelling.lanes.length ≤ 16 ∧ s.deliv.notices.length + travelling.lanes.length ≤ 16) ∧
    (stack 1 0 9).target ≤ (stack 1 0 9).count + 0 + 1 ∧ (stack 1 0 8).count + 0 + 1 < (stack 1 0 8).target := by
  decide +kernel

theorem witness_CommitSetsGatesAndClearsDebt :
    (waiting (withRows (base .track) [travelling]) (.commit 1207)).row? 1207 = some travelling ∧
    (waiting (withRows (base .track) [travelling]) (.commit 1208)).row? 1208 = none ∧
    (waiting (withRows (base .fault) [travelling]) (.commit 1207)).trk.state = .fault := by decide +kernel

/-- The row under the new slot, and one under the previous slot. -/
theorem witness_CarriedSwitchActsAtCommit :
    ∀ slot ∈ [(2 : SlotNumber), 1],
      let r := { travelling with slot := slot }
      let s : State := { waiting (withStacks (withRows (base .track) [r]) (some (stack 1 0 3)) none) (.commit 1207) with
        jobs := { (base .track).jobs with carried := some ⟨1, 2, 1207⟩ } }
      s.EventFirst (.commit 1207) [] ∧ s.row? 1207 = some r ∧ r.state = .travelling ∧ s.trk.state ≠ .fault ∧
      s.jobs.carried = some ⟨1, 2, 1207⟩ ∧ (s.job 1).target ≠ (s.job 2).target ∧ (stack 1 0 3).count ≠ 0 := by decide +kernel

/-- In DRAIN with no other row, and with another row left. -/
theorem witness_MissedCutDivertsRow :
    (∀ st ∈ [TrackingState.track, .drain],
      (waiting (withRows (base st) [committed]) (.missedCut 1207 383573)).row? 1207 = some committed) ∧
    leftToDrain (retained [{ committed with state := .missed }]) = false ∧
    leftToDrain (retained [{ committed with state := .missed }, travelling]) = true ∧
    (waiting (withRows (base .track) [travelling]) (.missedCut 1207 383573)).row? 1207 = some travelling := by decide +kernel

/-- The ends of the cut window and one count before it, and an error that reaches the clamp of O. -/
theorem witness_CutAdaptsKnifeOffset :
    (∀ x, (waiting (withRows (base .track) [committed]) (.knife x)).EventFirst (.knife x) []) ∧
    (withRows (base .track) [committed]).committedRow? = some committed ∧ (base .track).trk.state ≠ .fault ∧
    (base .track).trk.armed = some 1 ∧
    wdiff 382373 382973 = -600 ∧ wdiff 383573 382973 = 600 ∧ wdiff 382372 382973 = -601 :=
  ⟨fun _ => ⟨rfl, rfl⟩, by decide, by decide, rfl, by decide, by decide, by decide⟩

/-- Fifteen and sixteen settled rows before the cut. -/
theorem witness_CutRecordsRow :
    ∀ n ∈ [15, 16],
      let rows := rowsFrom (1207 - n) (List.replicate n .cut) ++ [committed]
      let s := waiting (withRows (base .track) rows) (.knife 383010)
      s.EventFirst (.knife 383010) [] ∧ s.committedRow? = some committed ∧ s.trk.state ≠ .fault ∧ s.RowsNumbered ∧
      (s.tab.rows.countP (fun y => decide (y.state = .cut ∨ y.state = .missed)) < 16 ↔ n = 15) := by decide +kernel

/-- A label that completes its stack, one that does not, and a lane where none lands; in TRACK, in DRAIN with no row left and
in DRAIN with one left. -/
theorem witness_CutLandsAndCountsLabels :
    (∀ st ∈ [TrackingState.track, .drain], ∀ n ∈ [9, 8],
      let s := waiting (withStacks (withRows (base st) [committed]) (some (stack 1 0 n)) none) (.knife 383010)
      s.EventFirst (.knife 383010) [] ∧ s.committedRow? = some committed ∧ s.trk.state ≠ .fault ∧
      s.openStack? 0 = some (stack 1 0 n) ∧ ((stack 1 0 n).count + 1 = (stack 1 0 n).target ↔ n = 9) ∧
      s.deliv.notices.length ≤ 4 ∧ committed.lanes.length ≤ 6 ∧
      (after (exec .knifeEvent s)).any (fun t => !leftToDrain t.tab.rows) = true) ∧
    (after (exec .knifeEvent (waiting
      { base .drain with tab := ⟨[committed, { travelling with number := 1208 }], 1209⟩ } (.knife 383010)))).any
      (fun t => leftToDrain t.tab.rows) = true := by decide +kernel

theorem witness_OrphanCutTouchesNoRow :
    (waiting (base .track) (.knife 5)).EventFirst (.knife 5) [] ∧ (waiting (base .track) (.knife 5)).committedRow? = none ∧
    (waiting (withRows (base .fault) [committed]) (.knife 5)).trk.state = .fault := by decide +kernel

theorem witness_ForcingCondemnsEveryActiveLane :
    (waiting (withRows (base .hunt) [committed]) .forcing).EventFirst .forcing [] ∧
    (waiting (withRows (base .hunt) [committed]) .forcing).RowsNumbered := by decide +kernel

/-- An OFFERED stack at 0 and at 1, a BACKOFF stack at 0 and at 1, and the fifth and sixth decline. -/
theorem witness_DeclinesLengthenBackoff :
    (∀ declines ∈ [0, 4, 5],
      let s := withStacks (base .track) none (some (held 2 0 .offered declines (some 0)))
      s.inReset = false ∧ s.heldStack? 0 = some (held 2 0 .offered declines (some 0)) ∧ s.Ready .delivery ∧
      s.stack? 2 = some (0, true, held 2 0 .offered declines (some 0))) ∧
    (withStacks (base .track) none (some (held 2 0 .backoff 1 (some 0)))).heldStack? 0 =
      some (held 2 0 .backoff 1 (some 0)) ∧
    (∀ st ∈ [StackState.offered, .backoff],
      let s := waiting (withStacks (base .track) none (some (held 2 0 st 1 (some 1)))) (.knife 5)
      s.EventFirst (.knife 5) [] ∧ s.committedRow? = none ∧ 0 < s.limit ∧ s.heldStack? 0 = some (held 2 0 st 1 (some 1)) ∧
      (held 2 0 st 1 (some 1)).remaining = some 1) ∧
    (held 2 0 .offered 4 (some 0)).declines = 4 ∧ (held 2 0 .offered 5 (some 0)).declines = 5 := by decide +kernel

/-- An event waits; nothing waits; each port in turn; a streak of eight; a request and a step with and without the grant. -/
theorem witness_ArbiterGrantsInOrder :
    (waiting (base .track) .forcing).tau.events ≠ [] ∧
    ((base .track).tau.events = [] ∧ ∀ p ∈ [Port.line, .inspection, .delivery], (base .track).portWaits p = false) ∧
    (∀ p ∈ [Port.line, .inspection, .delivery], ∀ streak ∈ [7, 8],
      let s : State := { asked (base .track) p (.readStatus 0) with
        tau := ⟨[], .line, streak⟩
        rng := ⟨[⟨.tally, .line, 0, 1206, 1, 1, 1206, 0, 0, 0, 0, 0, 0, 0, 0⟩], 1⟩ }
      s.tau.events = [] ∧ s.portWaits p = true ∧ s.rangeReady = true ∧
      (p = s.tau.pointer ∨ p = nextPort s.tau.pointer ∧ s.portWaits s.tau.pointer = false ∨
        p = nextPort (nextPort s.tau.pointer) ∧ s.portWaits s.tau.pointer = false ∧
          s.portWaits (nextPort s.tau.pointer) = false)) ∧
    (let s := asked (waiting (base .track) .forcing) .line (.readStatus 0);
      s.Waits .line 41 (.readStatus 0) ∧ (Request.readStatus 0).Waits ∧ s.nextGrant ≠ some (.port .line)) ∧
    (∀ p ∈ [Port.line, .inspection, .delivery],
      (asked (base .track) p (.readStatus 0)).Granted p 41 (.readStatus 0)) ∧
    (base .track).inReset = false ∧ (base .track).nextGrant ≠ some .range ∧
    ({ base .track with rng := ⟨[⟨.tally, .line, 0, 1206, 1, 1, 1206, 0, 0, 0, 0, 0, 0, 0, 0⟩], 1⟩ } : State).nextGrant =
      some .range := by decide +kernel

/-- A gone row, and a row found for each kind, in and out of time. -/
theorem witness_RangeStepActsOnOneRow :
    (∀ kind ∈ [RangeKind.force, .overrule, .tally],
      let e : RangeEntry := ⟨kind, .line, 0, 1207, 1, 1, 1207, 0, 0, 0, 0, 0, 0, 0, 0⟩
      let s : State := { withRows (base .track) [committed] with rng := ⟨[e], 1⟩ }
      s.inReset = false ∧ s.nextGrant = some .range) ∧
    (withRows (base .track) [committed]).lookup 1206 = .gone ∧
    (withRows (base .track) [committed]).lookup 1207 = .found committed ∧
    (withRows (base .track) [travelling]).lookup 1207 = .found travelling := by decide

/-- Lengths 256 and 257, a first row 512 and 513 past the newest, a full queue. -/
theorem witness_RangeRequestJoinsQueue :
    (∀ kind first length mask, (asked (base .track) .line (rangeRequest kind first length mask)).Granted .line 41
      (rangeRequest kind first length mask)) ∧
    (base .track).rng.queue.length < 4 ∧
    wdiff 1718 ((base .track).tab.nextRow - 1) = 512 ∧ wdiff 1719 ((base .track).tab.nextRow - 1) = 513 ∧
    (let s : State := { base .hunt with
      rng := ⟨List.replicate 4 ⟨.tally, .line, 0, 1300, 1, 1, 1300, 0, 0, 0, 0, 0, 0, 0, 0⟩, 1⟩ };
      s.rangeReady = false ∧ 4 ≤ s.rng.queue.length) :=
  ⟨fun kind _ _ _ => by cases kind <;> exact granted_asked rfl rfl rfl rfl, by decide, by decide, by decide, by decide⟩

/-- A port with an exchange in progress that drives out what it may. -/
def exchanging (s : State) (p : Port) (d : Driven) : State :=
  s.setPort p { s.port p with exchange := some ⟨d, s.plainReply p .stall 9⟩ }

/-- 127 and 128 bits clocked; a POLL, a PORT_CLEAR and another kind; each frame driven out. -/
theorem witness_ExchangeFixedThenJudged :
    (base .track).inReset = false ∧ ((base .track).port .line).exchange = none ∧
    (∀ d ∈ [Driven.reply, .stall, .idle], ((exchanging (base .track) .line d).port .line).exchange.isSome = true) ∧
    (List.replicate 127 false).length < 128 ∧ 128 ≤ (List.replicate 128 false).length ∧
    frameByte (clockedBytes (List.replicate 128 false)) 0 = 0 ∧
    frameByte (clockedBytes (List.replicate 128 true)) 0 = 255 ∧
    ((exchanging (base .track) .line .idle).port .line).exchange.any (fun x => decide (x.out.result.length ≤ 13)) =
      true := by decide +kernel

/-- Kinds 31 and 30 (not for the Line Port), 13 with a part number 3, 16, and 6; a GRADE whose list is as long as its mask,
one that is not; a second JOB_LOAD part with and without its first part in the buffer. -/
theorem witness_TakenFrameCheckedInOrder :
    (∀ c ∈ [(31 : Byte), 30, 13, 16, 6],
      let bits := bitsOf (c :: 41 :: 3 :: List.replicate 13 0)
      128 ≤ bits.length ∧ frameByte (clockedBytes bits) 0 = c) ∧
    Port.line ∉ permittedPorts.getD 30 [] ∧ Port.line ∈ permittedPorts.getD 13 [] ∧
    (∀ d ∈ [Driven.reply, .idle],
      ((exchanging (base .track) .line d).port .line).exchange.any (fun x => decide (x.driven ≠ .stall)) = true) ∧
    (let w : Taken := ⟨41, .disarm⟩; w.request.Fits ∧ ¬w.request.Waits ∧ ¬FormFaulty none w ∧
      w.bytes 1 <+: clockedBytes (bitsOf (16 :: 41 :: List.replicate 14 7))) ∧
    (let w : Taken := ⟨41, .grade 1207 2 [3]⟩; w.request.Fits ∧ w.request.Waits ∧ ¬FormFaulty none w ∧
      w.bytes 1 <+: clockedBytes (bitsOf [26, 41, 0xb7, 0x04, 0, 0, 2, 1, 3, 7, 7, 7, 7, 7, 7, 7]) ∧
      Port.inspection ∈ permittedPorts.getD 26 [] ∧ FormFaulty none ⟨41, .grade 1207 3 [3]⟩) ∧
    (let w : Taken := ⟨41, .jobLoad job12⟩; w.request.Fits ∧ ¬w.request.Waits ∧ FormFaulty none w ∧
      FormFaulty (some ⟨40, part 0 1⟩) w ∧ ¬FormFaulty (some ⟨41, part 0 1⟩) w) := by
  decide +kernel

/-- A port that is free, one where a request waits, one with a reply, one in an exchange; a kind for another port, a form at
fault, a request that is carried out at once and one that waits. -/
theorem witness_RequestCommandBringsItsFrame :
    (base .track).inReset = false ∧ (Request.disarm).Fits ∧ ¬(Request.disarm).Waits ∧ (Request.readStatus 0).Waits ∧
    ((base .track).port .line).request ≠ some ⟨41, .readStatus 0⟩ ∧ ((base .track).port .line).exchange = none ∧
    ((asked (base .track) .line (.readStatus 0)).port .line).request ≠ some ⟨42, .readStatus 0⟩ ∧
    ((asked (base .track) .line (.readStatus 0)).port .line).request.isSome = true ∧
    ((asked (base .track) .line (.readStatus 0)).port .line).reply = none ∧
    ((base .track).setPort .line { (base .track).line with
      reply := some ((base .track).plainReply .line .done 9) }).line.reply.isSome = true ∧
    ((exchanging (base .track) .line .idle).port .line).exchange.isSome = true ∧
    Port.inspection ∉ permittedPorts.getD ((Request.disarm).spelled 1).1 [] ∧
    FormFaulty none ⟨41, .jobLoad job12⟩ ∧ ¬FormFaulty none ⟨41, .disarm⟩ := by decide +kernel

/-- An empty queue and one with a notice, on pages 0, 2 and 3; with no exchange in progress and with one that drives out IDLE. -/
theorem witness_NoticeReadAndTaken : (2 : Byte).toNat ≤ 2 ∧ 2 < (3 : Byte).toNat ∧
    ∀ notices ∈ [[], [stateChangeNotice .hunt 0]],
      let s := (base .track).setPort .line { (base .track).line with notices := notices }
      s.Ready .line ∧ (exchanging s .line .idle).Ready .line ∧ (s.port .line).notices = notices := by decide +kernel

theorem witness_FetchSummaryClearsFlags : (base .track).Ready .line := by decide +kernel

theorem witness_AttentionFollowsThreshold :
    (base .track).Ready .line ∧ 3 < (4 : Byte).toNat ∧
    (∀ level ∈ [(0 : Byte), 3], (level.toNat, if level = 0 then Threshold.info else .off) ∈
      [(0, Threshold.info), (1, .warn), (2, .alarm), (3, .off)]) ∧
    (base .track).inReset = false ∧ ({ base .track with inReset := true } : State).inReset = true := by decide +kernel

/-- A PORT_CLEAR frame whose exchange drove out STALL, and one with no exchange in progress. -/
theorem witness_PortClearEmptiesItsPort :
    (base .track).inReset = false ∧
    (let bits := bitsOf (5 :: 41 :: List.replicate 14 0);
      128 ≤ bits.length ∧ frameByte (clockedBytes bits) 0 = 5 ∧ frameByte (clockedBytes bits) 1 = 41) ∧
    ((exchanging (base .track) .line .stall).port .line).exchange.isSome = true := by decide +kernel

theorem witness_StatusPagesReported : ∀ page ∈ [(0 : Byte), 7, 8],
    (asked (base .track) .line (.readStatus page)).Granted .line 41 (.readStatus page) := by decide +kernel

/-- A row that is gone, the oldest, the newest and the next one, on pages 5 and 6. -/
theorem witness_RowReadByNumberAndPage :
    let s := withRows (base .track) (rowsFrom 1206 [.cut, .travelling])
    (∀ n page, (asked s .line (.readRow n page)).Granted .line 41 (.readRow n page)) ∧ s.RowsNumbered ∧
      (s.tab.rows.head?.map (·.number)).getD s.tab.nextRow = 1206 ∧ s.tab.rows.length = 2 ∧
      wdiff 1205 1206 = -1 ∧ wdiff 1206 1206 = 0 ∧ wdiff 1207 1206 = 1 ∧ wdiff 1208 1206 = 2 :=
  ⟨fun _ _ => granted_asked rfl rfl rfl rfl, by decide, rfl, rfl, by decide, by decide, by decide, by decide⟩

/-- An open stack and a held stack that are present, and an id that is not; pages 6 and 7. -/
theorem witness_StackPagesReported :
    let s := withStacks (base .track) (some (stack 1 0 3)) (some (held 2 0 .offered 0 (some 8)))
    s.Ready .line ∧ (6 : Byte).toNat ≤ 6 ∧ 6 < (7 : Byte).toNat ∧
      s.stack? 1 = some (0, false, stack 1 0 3) ∧ s.stack? 2 = some (0, true, held 2 0 .offered 0 (some 8)) ∧
      ∀ l ∈ s.pock.lanes, l.has 3 = false := by decide +kernel

/-- The last lane below the limit and the first beyond it; pages 2 and 3; masks 0, of both lanes and of a lane beyond. -/
theorem witness_LanePagesAndTallyClears :
    (base .track).Ready .line ∧ (base .track).limit = 2 ∧ (base .track).lane? 1 = some .atReset ∧
    (2 : Byte).toNat ≤ 2 ∧ 2 < (3 : Byte).toNat ∧ (∀ i < 8, (3 : Byte).getLsbD i = true → i < 2) ∧
    (4 : Byte).getLsbD 2 = true := by decide +kernel

/-- An empty part buffer and one with the part's tag; a protected slot in TRACK, and a slot from which no rule keeps a load:
the gate lead at its limit and past it. -/
theorem witness_JobLoadCheckedAndStored :
    (base .track).Ready .line ∧ (base .track).partBuffer.map (·.tag) ≠ some 41 ∧
    (∀ slot lead, let s : State := { base .track with partBuffer := some ⟨41, part slot lead⟩ }
      s.Ready .line ∧ s.partBuffer = some ⟨41, part slot lead⟩) ∧
    ((base .track).trk.state ≠ .idle ∧ (base .track).trk.armed = some 1 ∧
      (1 : SlotNumber).val = (part 1 2400).slot.toNat) ∧
    (∀ n : SlotNumber, n.val = (part 0 3000).slot.toNat → (base .track).trk.armed ≠ some n ∧
      (base .track).jobs.scheduled.map (·.slot) ≠ some n ∧ (base .track).jobs.carried.map (·.previous) ≠ some n) ∧
    (base .idle).trk.state = .idle :=
  ⟨ready_free rfl rfl rfl, by decide, fun _ _ => ⟨ready_free rfl rfl rfl, rfl⟩, by decide, by decide, rfl⟩

/-- at_row at the next row, 65,535 and 65,536 past it and one before it; in DRAIN; while a switch is carried. -/
theorem witness_JobSwitchScheduled :
    (base .track).Ready .line ∧
    (base .track).trk.armed = some 1 ∧ (base .track).trk.state = .track ∧ (2 : Byte).toNat ≠ (1 : SlotNumber).val ∧
    (base .track).jobs.carried = none ∧ ((base .track).validJob? 2).isSome = true ∧
    ((base .track).job 2).rn = ((base .track).job 1).rn ∧ ((base .track).job 2).lk = ((base .track).job 1).lk ∧
    ((base .track).job 2).li = ((base .track).job 1).li ∧
    wdiff 66742 (base .track).tab.nextRow = 65535 ∧ wdiff 66743 (base .track).tab.nextRow = 65536 ∧
    wdiff 1206 (base .track).tab.nextRow = -1 ∧ (base .drain).trk.state = .drain ∧ (base .drain).Ready .line ∧
    ({ base .track with jobs := { (base .track).jobs with carried := some ⟨1, 2, 5⟩ } } : State).jobs.carried.isSome =
      true := by decide +kernel

theorem witness_SwitchToArmedSlotCancels :
    (∀ st ∈ [TrackingState.track, .drain],
      (base st).Ready .line ∧ (base st).trk.armed = some 1 ∧ (1 : Byte).toNat = (1 : SlotNumber).val ∧
      ((base st).validJob? 1).isSome = true) ∧
    ({ base .track with jobs := .atReset } : State).validJob? 1 = none := by decide +kernel

/-- Out of IDLE, a slot that is not VALID, a frontier at the tolerance and one count past it; two lanes to open. -/
theorem witness_ArmStartsHunt :
    (base .track).Ready .line ∧
    (∀ n : SlotNumber, n.val = (0 : Byte).toNat → (base .idle).validJob? n = none) ∧
    (∀ f, ({ base .idle with pos := { State.reset.pos with frontier := f } } : State).Ready .line) ∧
    (base .idle).validJob? 1 = some job ∧ (base .idle).trk.state = .idle ∧ wdiff 1000 0 = job.tolerance ∧
    wdiff 1001 0 = job.tolerance + 1 ∧ (base .idle).StackIdsDistinct :=
  ⟨ready_free rfl rfl rfl, by decide, fun _ => ready_free rfl rfl rfl, by decide, rfl, by decide, by decide, by decide⟩

theorem witness_DisarmDrainsOrIdles :
    (∀ st ∈ [TrackingState.idle, .hunt, .track, .drain, .fault], (base st).Ready .line) ∧
    leftToDrain (withRows (base .track) [travelling]).tab.rows = true ∧ leftToDrain (base .track).tab.rows = false := by
  decide +kernel

theorem witness_RestartEmptiesTableAndHunts :
    (∀ st f, ({ base st with pos := { State.reset.pos with frontier := f } } : State).Ready .line) ∧
    (base .fault).trk.armed = some 1 ∧ (base .fault).trk.state = .fault ∧ (base .track).trk.state ≠ .fault ∧
    wdiff 1000 0 = ((base .fault).job 1).tolerance ∧ wdiff 1001 0 = ((base .fault).job 1).tolerance + 1 :=
  ⟨fun _ _ => ready_free rfl rfl rfl, rfl, rfl, by decide, by decide, by decide⟩

theorem witness_ResetTrackingReturnsToIdle : (base .track).Ready .line ∧ (base .idle).Ready .line := by decide +kernel

theorem witness_FaultRecordReadAndCleared :
    (base .track).Ready .line ∧ (base .fault).Ready .line ∧ (base .track).trk.fault = none := by decide +kernel

/-- The last lane below the limit and the first beyond it, lines 0 to 2, with and without a COMMITTED row. -/
theorem witness_LineRequestsDriveManualLines :
    (base .track).Ready .line ∧ (withRows (base .track) [committed]).Ready .line ∧
    (∃ r ∈ (withRows (base .track) [committed]).tab.rows, r.state = .committed) ∧
    (∀ r ∈ (base .track).tab.rows, r.state ≠ .committed) ∧ (base .track).limit = 2 ∧
    ¬(1 < (1 : Byte).toNat ∨ (base .track).limit ≤ (1 : Byte).toNat) ∧ 1 < (2 : Byte).toNat := by decide +kernel

/-- A lane beyond the limit, scopes 0 to 2, with and without stacks, and a lane that is blocked by either reason or both. -/
theorem witness_ClearPocketEmptiesLane :
    (base .track).Ready .line ∧ 1 < (2 : Byte).toNat ∧
    (base .track).limit = 2 ∧ (base .track).heldStack? 0 = none ∧ (base .track).lane? 0 = some .atReset ∧
    (let s := withStacks (base .track) (some (stack 1 0 3)) (some (held 2 0 .offered 0 (some 8)));
      s.Ready .line ∧ s.StackIdsDistinct ∧
      s.heldStack? 0 = some (held 2 0 .offered 0 (some 8)) ∧ s.openStack? 0 = some (stack 1 0 3)) ∧
    ∀ why ∈ [(true, false), (false, true), (true, true)],
      let s := blockedLane (base .track) why.1 why.2
      s.Ready .line ∧ s.StackIdsDistinct ∧ s.openStack? 0 = some (stack 1 0 9) ∧
        (s.lane? 0).any (fun l => (l.overflow, l.closing) == why && l.heldStack.isSome) = true := by
  and_intros <;> decide +kernel

/-- A mask and a grade code out of range, a row that is gone, not yet created and present. -/
theorem witness_GradeMergedInTimeOrLate :
    (∀ n mask grades, (asked (withRows (base .track) [committed]) .inspection (.grade n mask grades)).Granted
      .inspection 41 (.grade n mask grades)) ∧
    (withRows (base .track) [committed]).lookup 1206 = .gone ∧
    (withRows (base .track) [committed]).lookup 1207 = .found committed ∧
    (withRows (base .track) [committed]).lookup 1208 = .notYet ∧ (base .track).limit = 2 :=
  ⟨fun _ _ _ => granted_asked rfl rfl rfl rfl, by decide, by decide, by decide, by decide⟩

theorem witness_LastTriggeredRowReported :
    (base .track).Ready .inspection ∧ (base .track).kg.lastTriggered = none ∧
    (waiting (withRows (base .track) [travelling]) (.trigger 1207)).row? 1207 = some travelling ∧
    Instr.commit ≠ .triggerEvent ∧ ∀ straps a b, Instr.commit ≠ .resetNReleased straps a b :=
  ⟨by decide +kernel, rfl, by decide +kernel, by decide +kernel, fun _ _ _ => nofun⟩

/-- An open stack and a held stack in each offer state, an id of neither, and a held stack in a lane that is blocked. -/
theorem witness_AcceptAndDeclineNameHeldStacks :
    (∀ st ∈ [StackState.offered, .backoff, .stranded],
      let s := withStacks (base .track) (some (stack 1 0 3)) (some (held 2 0 st 0 (some 8)))
      s.Ready .delivery ∧
      s.stack? 1 = some (0, false, stack 1 0 3) ∧ s.stack? 2 = some (0, true, held 2 0 st 0 (some 8)) ∧
      (∀ l ∈ s.pock.lanes, l.has 3 = false) ∧ (s.lane? 0).isSome = true) ∧
    ∀ why ∈ [(true, false), (false, true), (true, true)],
      let s := blockedLane (base .track) why.1 why.2
      s.Ready .delivery ∧ s.stack? 2 = some (0, true, held 2 0 .offered 0 (some 8)) ∧
        s.openStack? 0 = some (stack 1 0 9) ∧
        (s.lane? 0).any (fun l => (l.overflow, l.closing) == why) = true := by
  and_intros <;> decide +kernel

theorem witness_OfferWindowStoredInRange :
    (base .track).Ready .delivery ∧
    (withStacks (base .track) none (some (held 2 0 .backoff 1 (some 0)))).heldStack? 0 =
      some (held 2 0 .backoff 1 (some 0)) ∧ (base .track).inReset = false := by decide +kernel

/-- A state away from reset that meets the premises of every invariant, and a step of it: both lanes of the COMMITTED row go
to their pockets, and the first label completes its stack. -/
def lively : State :=
  { waiting (withRows (base .track) [committed]) (.knife 383010) with
    pock := ⟨[{ PocketLane.atReset with openStack := some (stack 1 0 9), pendingCount := 1 },
      { PocketLane.atReset with openStack := some (stack 2 1 3), pendingCount := 1 }], 9⟩
    pending := [.knifeEvent] }

theorem witness_StepKeepsQueuesBounded : lively.QueuesBounded ∧ lively.JobsInRange ∧ lively.PlansSound ∧
    lively.TrackerInRange ∧ (after (step lively)).isSome = true :=
  ⟨by decide +kernel, by decide +kernel, by decide +kernel, by decide +kernel, by decide +kernel⟩

/-- A request that waits, a reply, and each exchange that may stand over them. -/
theorem witness_StepKeepsQueuesBounded_ports : lively.PortsSound ∧
    ((asked lively .line (.readStatus 0)).port .line).SlotsSound .line ∧
    ((exchanging (asked lively .line (.readStatus 0)) .line .stall).port .line).SlotsSound .line := by
  refine ⟨fun p => ?_, ?_, ?_⟩
  · cases p <;> exact ⟨by simp [lively, State.port, waiting, withRows, base, State.reset, PortState.atReset], by
      simp [lively, State.port, waiting, withRows, base, State.reset, PortState.atReset], by
      simp [lively, State.port, waiting, withRows, base, State.reset, PortState.atReset]⟩
  · decide +kernel
  · decide +kernel

/-- The commit of the oldest TRAVELLING row with none COMMITTED; a new row behind the COMMITTED one, at the least distance of
the guard. -/
theorem witness_StepKeepsRowsNumbered :
    (lively.RowsNumbered ∧ lively.RowsInStateOrder ∧ (after (step lively)).isSome = true) ∧
    (let s : State := { waiting (withRows (base .track) [travelling]) (.commit 1207) with pending := [.commit] };
      s.RowsNumbered ∧ s.RowsInStateOrder ∧ s.row? 1207 = some travelling ∧ s.committedRow? = none ∧
      s.tab.rows.find? (fun y => decide (y.state = .travelling)) = some travelling) ∧
    (let s := withRows (base .track) [committed]
      let q := s.newRow .sensed 4294900000
      q.BornAs s 1 .sensed 4294900000 450269 150450 12036 ∧ q.clamped = true ∧ s.keptRows.getLast? = some committed ∧
      within 64 1048575 12000 ∧ within (12000 - 12000 / 4) (12000 + 12000 / 4) 12036 ∧
      within 1 (12000 / 4) (s.job 1).lead ∧ within 1 (12000 / 16) 600) := by decide +kernel

theorem witness_StepKeepsGatesLawful :
    lively.AbsentLinesAtRest ∧ lively.GatesLawful ∧ (after (step lively)).isSome = true := by decide +kernel

theorem witness_AbsentLanesStayAtRest : lively.pock.lanes.length = lively.limit ∧ lively.AbsentLinesAtRest ∧
    (after (step lively)).isSome = true ∧ (base .track).limit ≤ (2 : Byte).toNat ∧ (base .track).Ready .line := by
  decide +kernel

theorem witness_StepKeepsRowHistory : lively.RowsNumbered ∧ lively.RowsInStateOrder ∧ lively.RecordsSound ∧
    (after (step lively)).any (fun t => t.tab.rows.map (·.number) == lively.tab.rows.map (·.number)) = true ∧
    lively.pending.head? ≠ some .rangeStep := by decide +kernel

/-- The step counts one tally in each lane. -/
theorem witness_StepKeepsStacksSound :
    lively.SuspectsSound ∧ lively.StackIdsDistinct ∧ lively.JobsInRange ∧ lively.PlansSound ∧ lively.StacksCounted ∧
    lively.RowsNumbered ∧ lively.RowsInStateOrder ∧ lively.RecordsSound ∧ 1 < lively.pock.lanes.length ∧
    (after (step lively)).map (fun t => t.pock.lanes.map (·.stacked)) = some [1, 1] :=
  by and_intros <;> decide +kernel

end Sys2Proof.Tests
end

section
/-! PROOFS. JOB_SWITCH over the taking of its frame, and the cancelling of the scheduled switch (R8, R9). -/

namespace Sys2Proof.Machine

/-! ### What a reply in the slot leaves alone -/

@[simp] theorem State.withReply_trk (s : State) (p : Port) (r : Option Reply) : (s.withReply p r).trk = s.trk :=
  State.modifyPort_trk s p _

@[simp] theorem State.withReply_jobs (s : State) (p : Port) (r : Option Reply) : (s.withReply p r).jobs = s.jobs :=
  State.modifyPort_jobs s p _

@[simp] theorem State.withReply_tab (s : State) (p : Port) (r : Option Reply) : (s.withReply p r).tab = s.tab :=
  State.modifyPort_tab s p _

theorem State.withReply_schedule (s : State) (p : Port) (r : Option Reply) (w : Option ScheduledSwitch) :
    (s.withReply p r).schedule w = (s.schedule w).withReply p r := by
  cases p <;> rfl

/-! ### Slots -/

theorem State.validJob?_congr {s t : State} (h : s.jobs = t.jobs) (n : SlotNumber) :
    s.validJob? n = t.validJob? n := by
  simp only [State.validJob?, h]

theorem State.job_congr {s t : State} (h : s.jobs = t.jobs) (n : SlotNumber) : s.job n = t.job n := by
  simp only [State.job, State.validJob?_congr h]

theorem State.validSlot?_congr {s t : State} (h : s.jobs = t.jobs) (b : Byte) :
    s.validSlot? b = t.validSlot? b := by
  simp only [State.validSlot?, State.validJob?_congr h]

theorem State.switchRowOk_congr {s t : State} (h : s.tab = t.tab) (atRow : Word) :
    s.switchRowOk atRow = t.switchRowOk atRow := by
  simp only [State.switchRowOk, h]

theorem slotNumber?_of_toNat_eq {b : Byte} {n : SlotNumber} (h : b.toNat = n.val) : slotNumber? b = some n := by
  have hlt : b.toNat < 4 := h ▸ n.isLt
  rw [slotNumber?, dif_pos hlt]
  exact congrArg some (Fin.ext h)

theorem State.validSlot?_of_slotNumber {s : State} {b : Byte} {n : SlotNumber} (h : slotNumber? b = some n) :
    s.validSlot? b = (s.validJob? n).map fun j => (n, j) := by
  simp only [State.validSlot?, h, Option.bind_some]

/-! ### JOB_SWITCH -/

/-- JOB_SWITCH judges tracker, slots and table only, and its answer takes the reply slot, whatever stood in it. -/
@[simp] theorem State.withReply_switchJob (s : State) (p : Port) (r : Option Reply) (tag slot : Byte) (atRow : Word) :
    (s.withReply p r).switchJob p tag slot atRow = s.switchJob p tag slot atRow := by
  have hjobs := s.withReply_jobs p r
  simp only [State.switchJob, State.withReply_trk, State.withReply_jobs, State.withReply_answer,
    State.withReply_schedule, State.validSlot?_congr hjobs, State.job_congr hjobs,
    State.switchRowOk_congr (s.withReply_tab p r)]

/-- The command on a Line Port that takes its frame is the request, judged on what the exchange has left (R163). -/
theorem exec_jobSwitch_of_ready {s : State} (h : s.Ready .line) (tag slot : Byte) (atRow : Word) :
    exec (.jobSwitch .line tag slot atRow) s = .next ((s.frameTaken .line).switchJob .line tag slot atRow) := by
  obtain ⟨r, hr⟩ := State.atOnce_of_ready (t := ⟨tag, .jobSwitch slot atRow⟩) h rfl rfl
  calc exec (.jobSwitch .line tag slot atRow) s
      = s.atOnce .line ⟨tag, .jobSwitch slot atRow⟩ := rfl
    _ = .next (((s.frameTaken .line).withReply .line r).switchJob .line tag slot atRow) := hr
    _ = .next ((s.frameTaken .line).switchJob .line tag slot atRow) := by rw [State.withReply_switchJob]

/-- R8: outside HUNT, TRACK and FAULT every JOB_SWITCH is refused. -/
theorem State.switchJob_of_not_switchable {s : State} (h : s.trk.state.switchable = false) (p : Port)
    (tag slot : Byte) (atRow : Word) : s.switchJob p tag slot atRow = s.answer p tag .badState [] := by
  cases ha : s.trk.armed <;> simp [State.switchJob, ha, h]

/-- R9: where a JOB_SWITCH may be accepted, one that names the armed slot is judged by that slot's validity alone. -/
theorem State.switchJob_of_armed {s : State} {a : SlotNumber} {slot : Byte} (harmed : s.trk.armed = some a)
    (hstate : s.trk.state.switchable = true) (hslot : slotNumber? slot = some a) (p : Port) (tag : Byte)
    (atRow : Word) : s.switchJob p tag slot atRow =
      if (s.validJob? a).isSome then (s.schedule none).answer p tag .done [] else s.answer p tag .badArg [] := by
  cases hjob : s.validJob? a <;>
    simp [State.switchJob, harmed, hstate, hslot, State.validSlot?_of_slotNumber hslot, hjob]

theorem TrackingState.not_switchable_of_idle_or_drain {t : TrackingState} (h : t = .idle ∨ t = .drain) :
    t.switchable = false := by
  rcases h with rfl | rfl <;> rfl

theorem TrackingState.switchable_of_hunt_track_or_fault {t : TrackingState}
    (h : t = .hunt ∨ t = .track ∨ t = .fault) :
    t.switchable = true := by
  rcases h with rfl | rfl | rfl <;> rfl

/-- Settles O42: the command is the request on the state that its frame has left, which has the tracker and the slots of
`s`; the state is judged first, then the armed slot's validity. -/
theorem switchToArmedSlotCancels : Obligations.SwitchToArmedSlotCancels := by
  intro s tag slot atRow a hready harmed hslot u
  have htrk : u.trk = s.trk := s.frameTaken_trk .line
  have hjobs : u.jobs = s.jobs := s.frameTaken_jobs .line
  rw [exec_jobSwitch_of_ready hready]
  refine ⟨fun hstate => ?_, fun hstate => ?_⟩
  · have hrefused : u.trk.state.switchable = false := htrk ▸ TrackingState.not_switchable_of_idle_or_drain hstate
    rw [State.switchJob_of_not_switchable hrefused, State.answer_eq_reply]
  · have hopen : u.trk.state.switchable = true := htrk ▸ TrackingState.switchable_of_hunt_track_or_fault hstate
    rw [State.switchJob_of_armed (htrk ▸ harmed) hopen (slotNumber?_of_toNat_eq hslot), State.validJob?_congr hjobs]
    refine ⟨fun hnone => ?_, fun hvalid => ?_⟩
    · rw [hnone]
      rfl
    · rw [if_pos hvalid, State.answer_eq_reply, State.schedule, hjobs]

end Sys2Proof.Machine
end

section
/-! PROOFS. The frontier: the edge that moves it, the frame of every other command, and the captures judged against it
(R17, R19). -/

namespace Sys2Proof.Machine

/-! ### Captures judged against the frontier -/

theorem exec_markEdge_of_released {s : State} (h : s.inReset = false) :
    exec .markEdge s = .next (if s.captureIgnored then s else s.handEvent (.mark s.pos.web true)) := by
  rw [exec, execMarkEdge, State.awake_of_released h]

theorem exec_knifeEdge_of_released {s : State} (h : s.inReset = false) :
    exec .knifeEdge s = .next (if s.captureIgnored then s else s.handEvent (.knife s.pos.web)) := by
  rw [exec, execKnifeEdge, State.awake_of_released h]

theorem State.captureIgnored_iff (s : State) : s.captureIgnored = true ↔ wdiff s.pos.web s.pos.frontier < 0 :=
  decide_eq_true_iff

/-- Settles O10: both edges judge the capture by P − F alone, whatever the tracking state. -/
theorem capturesBehindFrontierIgnored : Obligations.CapturesBehindFrontierIgnored := by
  intro s h
  rw [exec_markEdge_of_released h, exec_knifeEdge_of_released h]
  refine ⟨fun hbehind => ?_, fun hreached => ?_⟩
  · have hignored := s.captureIgnored_iff.2 hbehind
    exact ⟨by rw [if_pos hignored], by rw [if_pos hignored]⟩
  · have htaken : ¬s.captureIgnored = true := fun hignored => not_lt.2 hreached (s.captureIgnored_iff.1 hignored)
    exact ⟨by rw [if_neg htaken]; rfl, by rw [if_neg htaken]; rfl⟩

/-! ### Stacks and the offer cycle leave the Position Unit alone -/

/-- What each step of a run keeps, the run keeps. -/
theorem State.foldl_keeps {α β : Type} (g : State → β) {f : State → α → State} (hf : ∀ s a, g (f s a) = g s)
    (l : List α) (s : State) : g (l.foldl f s) = g s := by
  induction l generalizing s with
  | nil => rfl
  | cons a l ih => rw [List.foldl_cons, ih, hf]

theorem State.foldl_pos {α : Type} {f : State → α → State} (hf : ∀ s a, (f s a).pos = s.pos) (l : List α) (s : State) :
    (l.foldl f s).pos = s.pos := State.foldl_keeps (·.pos) hf l s

@[simp] theorem State.openNew_pos (s : State) (lane : Nat) (slot : SlotNumber) (target : Nat) :
    (s.openNew lane slot target).pos = s.pos := rfl

@[simp] theorem State.offerNotice_pos (s : State) (lane : Nat) (k : Stack) : (s.offerNotice lane k).pos = s.pos :=
  State.raise_pos _ _

@[simp] theorem State.holdStack_pos (s : State) (lane : Nat) (k : Stack) : (s.holdStack lane k).pos = s.pos := by
  simp [State.holdStack]

@[simp] theorem State.laneBlocked_pos (s : State) (lane : Nat) (row : Option Word) :
    (s.laneBlocked lane row).pos = s.pos := State.raise_pos _ _

@[simp] theorem State.laneUnblocked_pos (s : State) (lane : Nat) (id : StackId) :
    (s.laneUnblocked lane id).pos = s.pos := State.raise_pos _ _

@[simp] theorem State.pocketCleared_pos (s : State) (lane : Nat) (k : Stack) :
    (s.pocketCleared lane k).pos = s.pos := State.raise_pos _ _

@[simp] theorem State.block_pos (s : State) (lane : Nat) (row : Option Word) (f : PocketLane → PocketLane) :
    (s.block lane row f).pos = s.pos := by
  unfold State.block; dsimp only; split <;> simp

@[simp] theorem State.completeStack_pos (s : State) (lane : Nat) : (s.completeStack lane).pos = s.pos := by
  unfold State.completeStack; split <;> simp

@[simp] theorem State.closeNow_pos (s : State) (lane : Nat) (k : Stack) (fromReset : Bool)
    (plan : SlotNumber × Nat) : (s.closeNow lane k fromReset plan).pos = s.pos := by
  cases fromReset <;> simp [State.closeNow]

@[simp] theorem State.deferClosure_pos (s : State) (lane : Nat) (fromReset : Bool) (row : Option Word) :
    (s.deferClosure lane fromReset row).pos = s.pos := State.block_pos _ _ _ _

@[simp] theorem State.closeLane_pos (s : State) (fromReset : Bool) (row : Option Word)
    (newPlan : Option (SlotNumber × Nat)) (lane : Nat) : (s.closeLane fromReset row newPlan lane).pos = s.pos := by
  unfold State.closeLane; repeat' split
  all_goals simp

@[simp] theorem State.closeAll_pos (s : State) (fromReset : Bool) : (s.closeAll fromReset).pos = s.pos :=
  State.foldl_pos (fun _ _ => State.closeLane_pos _ _ _ _ _) _ _

@[simp] theorem State.closeDeferred_pos (s : State) (lane : Nat) : (s.closeDeferred lane).pos = s.pos := by
  unfold State.closeDeferred
  split
  · rfl
  · next l _ =>
    split
    · cases l.deferUntracked <;> simp
    · rfl

@[simp] theorem State.removeHeld_pos (s : State) (lane : Nat) (wasBlocked : Bool) :
    (s.removeHeld lane wasBlocked).pos = s.pos := by
  unfold State.removeHeld; split
  · rfl
  · dsimp only; split <;> simp

@[simp] theorem State.declineHeld_pos (s : State) (lane : Nat) : (s.declineHeld lane).pos = s.pos := by
  unfold State.declineHeld; split
  · rfl
  · dsimp only; split <;> simp

@[simp] theorem State.reofferHeld_pos (s : State) (lane : Nat) : (s.reofferHeld lane).pos = s.pos := by
  unfold State.reofferHeld; split <;> simp

@[simp] theorem State.expireOffer_pos (s : State) (lane : Nat) : (s.expireOffer lane).pos = s.pos := by
  unfold State.expireOffer; repeat' split
  all_goals simp

@[simp] theorem State.expireBackoff_pos (s : State) (lane : Nat) : (s.expireBackoff lane).pos = s.pos := by
  unfold State.expireBackoff; repeat' split
  all_goals simp

@[simp] theorem State.countCutLane_pos (s : State) (lane : Nat) : (s.countCutLane lane).pos = s.pos := by
  unfold State.countCutLane; split
  · rfl
  · split <;> simp

@[simp] theorem State.countCut_pos (s : State) : s.countCut.pos = s.pos :=
  State.foldl_pos State.countCutLane_pos _ _

@[simp] theorem State.replanLane_pos (s : State) (slot : SlotNumber) (lane : Nat) :
    (s.replanLane slot lane).pos = s.pos := by
  unfold State.replanLane; repeat' split
  all_goals simp

@[simp] theorem State.replanAll_pos (s : State) (slot : SlotNumber) : (s.replanAll slot).pos = s.pos :=
  State.foldl_pos (fun _ _ => State.replanLane_pos _ _ _) _ _

@[simp] theorem State.clearHeld_pos (s : State) (lane : Nat) (wasBlocked : Bool) :
    (s.clearHeld lane wasBlocked).pos = s.pos := by
  unfold State.clearHeld; split <;> simp

@[simp] theorem State.discardOpen_pos (s : State) (lane : Nat) (k : Stack) : (s.discardOpen lane k).pos = s.pos := by
  simp [State.discardOpen]

/-! ### Grades, ranges, commits and cuts of one row leave the Position Unit alone -/

@[simp] theorem State.addSuspect_pos (s : State) (lane : Nat) (id : StackId) (row : Word) :
    (s.addSuspect lane id row).pos = s.pos := State.modifyLane_pos _ _ _

@[simp] theorem State.routeLate_pos (r : Row) (s : State) (lane : Nat) : (State.routeLate r s lane).pos = s.pos := by
  unfold State.routeLate; dsimp only; repeat' split
  all_goals simp

@[simp] theorem State.warnDelivered_pos (r : Row) (s : State) (lane : Nat) :
    (State.warnDelivered r s lane).pos = s.pos := by
  unfold State.warnDelivered; repeat' split
  all_goals simp

@[simp] theorem State.reportLate_pos (s : State) (r : Row) (late : List Nat) : (s.reportLate r late).pos = s.pos := by
  unfold State.reportLate; split
  · rfl
  · simp [State.foldl_pos (State.warnDelivered_pos r), State.foldl_pos (State.routeLate_pos r)]

@[simp] theorem State.mergeRow_pos (s : State) (r : Row) (g : Nat → Option Grade) : (s.mergeRow r g).pos = s.pos := by
  simp [State.mergeRow]

@[simp] theorem State.forceRow_pos (s : State) (n : Word) : (s.forceRow n).pos = s.pos := by
  unfold State.forceRow; split <;> simp

@[simp] theorem State.serveForcing_pos (s : State) : s.serveForcing.pos = s.pos :=
  State.foldl_pos State.forceRow_pos _ _

@[simp] theorem State.stepRow_pos (s : State) (e : RangeEntry) : (s.stepRow e).1.pos = s.pos := by
  unfold State.stepRow State.stepFound; repeat' split
  all_goals simp

@[simp] theorem State.stepHead_pos (s : State) (e : RangeEntry) (rest : List RangeEntry) :
    (s.stepHead e rest).pos = s.pos := by
  unfold State.stepHead; dsimp only; split <;> simp

@[simp] theorem State.driftLimit_pos (s : State) (row : Word) (bound : Int) : (s.driftLimit row bound).pos = s.pos := by
  simp [State.driftLimit]

@[simp] theorem State.adapt_pos (s : State) (row : Word) (e : Int) : (s.adapt row e).pos = s.pos := by
  unfold State.adapt; dsimp only; split <;> simp

@[simp] theorem State.applySwitch_pos (s : State) : s.applySwitch.pos = s.pos := by
  unfold State.applySwitch; repeat' split
  all_goals rfl

@[simp] theorem State.filterRepeat_pos (s : State) (pm : Word) : (s.filterRepeat pm).pos = s.pos := by
  unfold State.filterRepeat; dsimp only; repeat' split
  all_goals simp

@[simp] theorem State.switchCommit_pos (s : State) (r : Row) : (s.switchCommit r).pos = s.pos := by
  unfold State.switchCommit; repeat' split
  · rfl
  · simp only [State.raise_pos]
    rw [State.foldl_pos fun _ _ => State.replanLane_pos _ _ _, State.foldl_pos]
    intro t lane
    split <;> simp
  · rfl

@[simp] theorem State.applyDecision_pos (s : State) (row : Word) (lane : Nat) (d : Disposition × Option DivertReason) :
    (s.applyDecision row lane d).pos = s.pos := by
  unfold State.applyDecision; repeat' split
  all_goals simp

@[simp] theorem State.commitLane_pos (r : Row) (debt : Bool) (s : State) (lane : Nat) :
    (State.commitLane r debt s lane).pos = s.pos := by
  unfold State.commitLane; repeat' split
  all_goals simp

@[simp] theorem State.commitRow_pos (s : State) (r : Row) : (s.commitRow r).pos = s.pos := by
  unfold State.commitRow; dsimp only; split <;> simp [State.foldl_pos (State.commitLane_pos _ _)]

@[simp] theorem State.serveCommit_pos (s : State) (n : Word) : (s.serveCommit n).pos = s.pos := by
  unfold State.serveCommit; repeat' split
  all_goals simp

@[simp] theorem State.land_pos (r : Row) (misregistered : Bool) (s : State) (lane : Nat) (c : RowLane) :
    (State.land r misregistered s lane c).pos = s.pos := by
  unfold State.land; dsimp only; split
  · simp
  · split <;> split <;> simp

@[simp] theorem State.dispatchLane_pos (r : Row) (misregistered : Bool) (s : State) (lane : Nat) :
    (State.dispatchLane r misregistered s lane).pos = s.pos := by
  unfold State.dispatchLane; repeat' split
  all_goals simp

@[simp] theorem State.orphanCut_pos (s : State) (x : Word) : (s.orphanCut x).pos = s.pos := by
  simp [State.orphanCut]

@[simp] theorem State.missLane_pos (r : Row) (s : State) (lane : Nat) : (State.missLane r s lane).pos = s.pos := by
  unfold State.missLane; repeat' split
  all_goals simp

/-! ### Ports, exchanges and the requests that stay outside tracking -/

@[simp] theorem State.emptyPartBuffer_pos (s : State) (p : Port) : (s.emptyPartBuffer p).pos = s.pos := by
  unfold State.emptyPartBuffer; split <;> rfl

@[simp] theorem State.beginExchange_pos (s : State) (p : Port) : (s.beginExchange p).pos = s.pos := by
  unfold State.beginExchange; split <;> simp

@[simp] theorem State.closeExchange_pos (s : State) (p : Port) (x : Exchange) : (s.closeExchange p x).pos = s.pos :=
  State.modifyPort_pos _ _ _

@[simp] theorem State.stalledDiscard_pos (s : State) (p : Port) : (s.stalledDiscard p).pos = s.pos :=
  State.modifyPort_pos _ _ _

@[simp] theorem State.framingError_pos (s : State) (p : Port) : (s.framingError p).pos = s.pos :=
  State.modifyPort_pos _ _ _

@[simp] theorem State.answerRowGone_pos (s : State) (p : Port) (tag : Byte) (row : Word) :
    (s.answerRowGone p tag row).pos = s.pos := by
  simp [State.answerRowGone]

@[simp] theorem State.readNotice_pos (s : State) (p : Port) (tag page : Byte) (remove : Bool) :
    (s.readNotice p tag page remove).pos = s.pos := by
  unfold State.readNotice; repeat' split
  all_goals simp

@[simp] theorem State.fetchSummaryRequest_pos (s : State) (p : Port) (tag : Byte) :
    (s.fetchSummaryRequest p tag).pos = s.pos := by
  simp [State.fetchSummaryRequest]

@[simp] theorem State.setAttentionRequest_pos (s : State) (p : Port) (tag level : Byte) :
    (s.setAttentionRequest p tag level).pos = s.pos := by
  unfold State.setAttentionRequest; split <;> simp

@[simp] theorem State.portClearRequest_pos (s : State) (p : Port) (tag : Byte) :
    (s.portClearRequest p tag).pos = s.pos := by
  simp [State.portClearRequest, State.clearPort]

@[simp] theorem State.readStatusRequest_pos (s : State) (p : Port) (tag page : Byte) :
    (s.readStatusRequest p tag page).pos = s.pos := by
  unfold State.readStatusRequest; split <;> simp

@[simp] theorem State.readRowRequest_pos (s : State) (p : Port) (tag : Byte) (row : Word) (page : Byte) :
    (s.readRowRequest p tag row page).pos = s.pos := by
  unfold State.readRowRequest; repeat' split
  all_goals simp

@[simp] theorem State.readStackRequest_pos (s : State) (p : Port) (tag : Byte) (id : StackId) (page : Byte) :
    (s.readStackRequest p tag id page).pos = s.pos := by
  unfold State.readStackRequest; repeat' split
  all_goals simp

@[simp] theorem State.readLaneRequest_pos (s : State) (p : Port) (tag lane page : Byte) :
    (s.readLaneRequest p tag lane page).pos = s.pos := by
  unfold State.readLaneRequest; split <;> simp

@[simp] theorem State.requestRange_pos (s : State) (p : Port) (tag : Byte) (kind : RangeKind) (first : Word)
    (length : BitVec 16) (mask : Byte) : (s.requestRange p tag kind first length mask).pos = s.pos := by
  unfold State.requestRange; split <;> simp

@[simp] theorem State.jobLoadPartRequest_pos (s : State) (p : Port) (tag : Byte) (part : JobPart) :
    (s.jobLoadPartRequest p tag part).pos = s.pos := State.answer_pos _ _ _ _ _

@[simp] theorem State.loadJob_pos (s : State) (p : Port) (tag : Byte) (part : JobPart) (rest : JobRest) :
    (s.loadJob p tag part rest).pos = s.pos := by
  unfold State.loadJob; repeat' split
  all_goals simp

@[simp] theorem State.jobLoadRequest_pos (s : State) (p : Port) (tag : Byte) (held : Option PartBuffer)
    (rest : JobRest) : (s.jobLoadRequest p tag held rest).pos = s.pos := by
  unfold State.jobLoadRequest; split <;> simp

@[simp] theorem State.switchJob_pos (s : State) (p : Port) (tag slot : Byte) (atRow : Word) :
    (s.switchJob p tag slot atRow).pos = s.pos := by
  unfold State.switchJob; repeat' split
  all_goals simp

@[simp] theorem State.faultClearRequest_pos (s : State) (p : Port) (tag : Byte) :
    (s.faultClearRequest p tag).pos = s.pos := State.answer_pos _ _ _ _ _

@[simp] theorem State.modifyLine_pos (s : State) (line lane : Byte) (f : FieldLine → FieldLine) :
    (s.modifyLine line lane f).pos = s.pos := by
  unfold State.modifyLine; split <;> rfl

@[simp] theorem State.lineModeRequest_pos (s : State) (p : Port) (tag line lane mode : Byte) :
    (s.lineModeRequest p tag line lane mode).pos = s.pos := by
  unfold State.lineModeRequest; repeat' split
  all_goals simp

@[simp] theorem State.lineSetRequest_pos (s : State) (p : Port) (tag line lane : Byte) :
    (s.lineSetRequest p tag line lane).pos = s.pos := by
  unfold State.lineSetRequest; split <;> simp

@[simp] theorem State.lineClearRequest_pos (s : State) (p : Port) (tag line lane : Byte) :
    (s.lineClearRequest p tag line lane).pos = s.pos := by
  unfold State.lineClearRequest; split <;> simp

@[simp] theorem State.clearPocketHeld_pos (s : State) (p : Port) (tag : Byte) (lane : Nat) :
    (s.clearPocketHeld p tag lane).pos = s.pos := by
  unfold State.clearPocketHeld; split <;> simp

@[simp] theorem State.clearPocketAll_pos (s : State) (p : Port) (tag : Byte) (lane : Nat) :
    (s.clearPocketAll p tag lane).pos = s.pos := by
  unfold State.clearPocketAll; split <;> simp

@[simp] theorem State.clearPocketRequest_pos (s : State) (p : Port) (tag lane scope : Byte) :
    (s.clearPocketRequest p tag lane scope).pos = s.pos := by
  unfold State.clearPocketRequest; repeat' split
  all_goals simp

@[simp] theorem State.clearTalliesRequest_pos (s : State) (p : Port) (tag mask : Byte) :
    (s.clearTalliesRequest p tag mask).pos = s.pos := by
  unfold State.clearTalliesRequest; split <;> simp

@[simp] theorem State.gradeRow_pos (s : State) (p : Port) (tag : Byte) (row : Word) (mask : Byte)
    (grades : List Byte) : (s.gradeRow p tag row mask grades).pos = s.pos := by
  unfold State.gradeRow; repeat' split
  all_goals simp

@[simp] theorem State.triggerRowRequest_pos (s : State) (p : Port) (tag : Byte) :
    (s.triggerRowRequest p tag).pos = s.pos := by
  unfold State.triggerRowRequest; split <;> simp

@[simp] theorem State.reportMismatch_pos (s : State) (lane : Nat) (k : Stack) (counted : Option (BitVec 16)) :
    (s.reportMismatch lane k counted).pos = s.pos := by
  unfold State.reportMismatch; split <;> simp

@[simp] theorem State.acceptRequest_pos (s : State) (p : Port) (tag : Byte) (id : StackId)
    (counted : Option (BitVec 16)) : (s.acceptRequest p tag id counted).pos = s.pos := by
  unfold State.acceptRequest; split <;> simp

@[simp] theorem State.declineRequest_pos (s : State) (p : Port) (tag : Byte) (id : StackId) :
    (s.declineRequest p tag id).pos = s.pos := by
  unfold State.declineRequest; repeat' split
  all_goals simp

@[simp] theorem State.setOfferWindowRequest_pos (s : State) (p : Port) (tag : Byte) (cuts : BitVec 16) :
    (s.setOfferWindowRequest p tag cuts).pos = s.pos := State.answer_pos _ _ _ _ _

/-! ### Deadlines, faults and the reversal check leave the frontier (and the web) where it is -/

@[simp] theorem State.enterDeadline_frontier (s : State) (d : Deadline) :
    (s.enterDeadline d).pos.frontier = s.pos.frontier := by
  unfold State.enterDeadline; split <;> rfl

@[simp] theorem State.dropDeadlines_frontier (s : State) (p : DeadlineKind → Bool) :
    (s.dropDeadlines p).pos.frontier = s.pos.frontier := rfl

@[simp] theorem State.dropFlywheel_frontier (s : State) : s.dropFlywheel.pos.frontier = s.pos.frontier := rfl

@[simp] theorem State.dropFlywheel_web (s : State) : s.dropFlywheel.pos.web = s.pos.web := rfl

@[simp] theorem State.enterFlywheel_frontier (s : State) (x : Word) :
    (s.enterFlywheel x).pos.frontier = s.pos.frontier := by
  simp [State.enterFlywheel]

@[simp] theorem State.emptyTable_frontier (s : State) : s.emptyTable.pos.frontier = s.pos.frontier := rfl

@[simp] theorem State.fatalFault_frontier (s : State) (k : FaultKind) (row : Option Word) (x : Word) :
    (s.fatalFault k row x).pos.frontier = s.pos.frontier := by
  unfold State.fatalFault; split <;> simp

@[simp] theorem State.enterIdle_frontier (s : State) : s.enterIdle.pos.frontier = s.pos.frontier := by
  simp [State.enterIdle]

@[simp] theorem State.endDrain_frontier (s : State) : s.endDrain.pos.frontier = s.pos.frontier := by
  unfold State.endDrain; split <;> simp

@[simp] theorem State.reportReversal_pos (s : State) : s.reportReversal.pos = s.pos := by
  simp [State.reportReversal]

@[simp] theorem State.reverse_frontier (s : State) : s.reverse.pos.frontier = s.pos.frontier := by
  unfold State.reverse; split <;> simp

@[simp] theorem State.reverse_web (s : State) : s.reverse.pos.web = s.pos.web := by
  unfold State.reverse; split <;> simp

@[simp] theorem State.checkReversal_frontier (s : State) : s.checkReversal.pos.frontier = s.pos.frontier := by
  unfold State.checkReversal; repeat' split
  all_goals simp

@[simp] theorem State.checkReversal_web (s : State) : s.checkReversal.pos.web = s.pos.web := by
  unfold State.checkReversal; repeat' split
  all_goals simp

@[simp] theorem State.armReversalCheck_frontier (s : State) : s.armReversalCheck.pos.frontier = s.pos.frontier :=
  State.checkReversal_frontier _

/-! ### Rows and the events that make, cut and miss them leave the frontier where it is -/

@[simp] theorem State.retireOldest_frontier (s : State) : s.retireOldest.pos.frontier = s.pos.frontier := by
  unfold State.retireOldest; split <;> rfl

@[simp] theorem State.retain_frontier (s : State) : s.retain.pos.frontier = s.pos.frontier := by
  unfold State.retain; split <;> simp

theorem State.room?_frontier {s t : State} (h : s.room? = some t) : t.pos.frontier = s.pos.frontier := by
  revert h
  unfold State.room?
  repeat' split
  all_goals rintro ⟨⟩
  all_goals simp

@[simp] theorem State.insertRow_frontier (s : State) (r : Row) : (s.insertRow r).pos.frontier = s.pos.frontier := by
  simp [State.insertRow]

@[simp] theorem State.renewFlywheel_frontier (s : State) : s.renewFlywheel.pos.frontier = s.pos.frontier :=
  State.enterFlywheel_frontier _ _

@[simp] theorem State.tableFull_frontier (s : State) : s.tableFull.pos.frontier = s.pos.frontier :=
  State.fatalFault_frontier _ _ _ _

@[simp] theorem State.createSensed_frontier (s : State) (pm : Word) :
    (s.createSensed pm).pos.frontier = s.pos.frontier := by
  unfold State.createSensed; split
  · exact s.tableFull_frontier
  · next h => simp [State.room?_frontier h]

@[simp] theorem State.createResync_frontier (s : State) (pm : Word) :
    (s.createResync pm).pos.frontier = s.pos.frontier := by
  unfold State.createResync; split
  · exact s.tableFull_frontier
  · next h => simp [State.room?_frontier h]

@[simp] theorem State.loseRegister_frontier (s : State) (row : Word) :
    (s.loseRegister row).pos.frontier = s.pos.frontier := by
  simp [State.loseRegister]

@[simp] theorem State.createFlywheel_frontier (s : State) : s.createFlywheel.pos.frontier = s.pos.frontier := by
  unfold State.createFlywheel; split
  · exact s.tableFull_frontier
  · next h => dsimp only; split <;> simp [State.room?_frontier h]

@[simp] theorem State.spuriousMark_pos (s : State) : s.spuriousMark.pos = s.pos := State.modifyPort_pos _ _ _

@[simp] theorem State.serveMark_frontier (s : State) (x : Word) (live : Bool) :
    (s.serveMark x live).pos.frontier = s.pos.frontier := by
  unfold State.serveMark; repeat' split
  all_goals simp

@[simp] theorem State.serveFlywheel_frontier (s : State) (x : Word) :
    (s.serveFlywheel x).pos.frontier = s.pos.frontier := by
  unfold State.serveFlywheel; split <;> simp

@[simp] theorem State.serveTrigger_frontier (s : State) (n : Word) :
    (s.serveTrigger n).pos.frontier = s.pos.frontier := by
  unfold State.serveTrigger; split <;> simp

@[simp] theorem State.cutRow_frontier (s : State) (r : Row) (x : Word) :
    (s.cutRow r x).pos.frontier = s.pos.frontier := by
  unfold State.cutRow; dsimp only
  split <;> simp [State.foldl_pos (State.dispatchLane_pos _ _)]

@[simp] theorem State.serveKnife_frontier (s : State) (x : Word) : (s.serveKnife x).pos.frontier = s.pos.frontier := by
  unfold State.serveKnife; repeat' split
  all_goals simp

@[simp] theorem State.missRow_frontier (s : State) (r : Row) (x : Word) :
    (s.missRow r x).pos.frontier = s.pos.frontier := by
  simp [State.missRow, State.foldl_pos (State.missLane_pos _)]

@[simp] theorem State.serveMissedCut_frontier (s : State) (n x : Word) :
    (s.serveMissedCut n x).pos.frontier = s.pos.frontier := by
  unfold State.serveMissedCut; repeat' split
  all_goals simp

/-! ### No request moves the frontier -/

@[simp] theorem State.armSlot_frontier (s : State) (n : SlotNumber) (job : Job) :
    (s.armSlot n job).pos.frontier = s.pos.frontier := by
  simp [State.armSlot]

@[simp] theorem State.armRequest_frontier (s : State) (p : Port) (tag slot : Byte) :
    (s.armRequest p tag slot).pos.frontier = s.pos.frontier := by
  unfold State.armRequest; repeat' split
  all_goals simp

@[simp] theorem State.disarmRequest_frontier (s : State) (p : Port) (tag : Byte) :
    (s.disarmRequest p tag).pos.frontier = s.pos.frontier := by
  unfold State.disarmRequest; dsimp only; repeat' split
  all_goals simp

@[simp] theorem State.restartTracking_frontier (s : State) : s.restartTracking.pos.frontier = s.pos.frontier := by
  simp [State.restartTracking]

@[simp] theorem State.restartRequest_frontier (s : State) (p : Port) (tag : Byte) :
    (s.restartRequest p tag).pos.frontier = s.pos.frontier := by
  unfold State.restartRequest; split <;> simp

@[simp] theorem State.resetTracking_frontier (s : State) : s.resetTracking.pos.frontier = s.pos.frontier := by
  simp [State.resetTracking]

/-- A request carried out, or put into its slot to wait for its grant. -/
@[simp] theorem State.perform_frontier (s : State) (p : Port) (held : Option PartBuffer) (t : Taken) :
    (s.perform p held t).pos.frontier = s.pos.frontier := by
  obtain ⟨tag, request⟩ := t
  cases request <;>
    simp [State.perform, State.takeNoticeRequest, State.peekNoticeRequest, State.jobSwitchRequest,
      State.resetTrackingRequest, State.readFaultRequest]

@[simp] theorem State.take_frontier (s : State) (p : Port) (t : Taken) :
    (s.take p t).pos.frontier = s.pos.frontier := by
  unfold State.take; dsimp only; repeat' split
  all_goals simp

@[simp] theorem State.takeFrame_frontier (s : State) (p : Port) (f : List Byte) :
    (s.takeFrame p f).pos.frontier = s.pos.frontier := by
  unfold State.takeFrame; dsimp only; repeat' split
  all_goals simp

@[simp] theorem State.endExchange_frontier (s : State) (p : Port) (f : List Byte) :
    (s.endExchange p f).pos.frontier = s.pos.frontier := by
  unfold State.endExchange; repeat' split
  all_goals simp

@[simp] theorem State.bring_frontier (s : State) (p : Port) (t : Taken) :
    (s.bring p t).pos.frontier = s.pos.frontier := by
  unfold State.bring State.endExchangeWith; repeat' split
  all_goals simp

/-! ### Fired deadlines handed on -/

@[simp] theorem State.handOn_frontier (s : State) (d : Deadline) :
    (s.handOn d).pos.frontier = s.pos.frontier := by
  rw [State.handOn_eq]

@[simp] theorem State.fire_frontier (s : State) (k : DeadlineKind) : (s.fire k).pos.frontier = s.pos.frontier := by
  unfold State.fire; split <;> simp

@[simp] theorem State.handAll_frontier (s : State) : s.handAll.pos.frontier = s.pos.frontier :=
  State.foldl_keeps (·.pos.frontier) State.handOn_frontier _ _

/-! ### The edge -/

@[simp] theorem PositionUnit.toggle_frontier (u : PositionUnit) (ph : EncoderPhase) :
    (u.toggle ph).frontier = u.frontier := by
  cases ph <;> rfl

@[simp] theorem PositionUnit.move_web (u : PositionUnit) (up : Bool) :
    (u.move up).web = if up then u.web + 1 else u.web - 1 := by
  cases up <;> simp [PositionUnit.move, apply_ite PositionUnit.web, PositionUnit.advance]

/-- R17: where P has come to lie past the frontier, the frontier takes its value. -/
theorem PositionUnit.move_frontier (u : PositionUnit) (up : Bool) : (u.move up).frontier =
    if 0 < wdiff (u.move up).web u.frontier then (u.move up).web else u.frontier := by
  cases up <;> simp [PositionUnit.move, apply_ite PositionUnit.frontier, apply_ite PositionUnit.web,
    PositionUnit.advance]

/-- The state after an edge: fired deadlines are handed on, P moves with the frontier behind it, and the backward travel
is checked (R15 to R18, R20). -/
theorem exec_encoderEdge_of_released {s : State} (h : s.inReset = false) (ph : EncoderPhase) :
    exec (.encoderEdge ph) s = .next (State.checkReversal { s.handAll with
      pos := (s.handAll.pos.toggle ph).move (countsUp s.handAll.pos s.handAll.straps.dir ph) }) := by
  rw [exec, execEncoderEdge, State.awake_of_released h]

theorem exec_encoderEdge_frontier {s : State} (h : s.inReset = false) (ph : EncoderPhase) :
    ∃ t, exec (.encoderEdge ph) s = .next t ∧
      t.pos.frontier = if 0 < wdiff t.pos.web s.pos.frontier then t.pos.web else s.pos.frontier := by
  refine ⟨_, exec_encoderEdge_of_released h ph, ?_⟩
  rw [State.checkReversal_frontier, State.checkReversal_web, PositionUnit.move_frontier,
    PositionUnit.toggle_frontier, State.handAll_frontier]

/-! ### Every other command -/

/-- A command whose effect out of reset keeps the frontier answers a next state that keeps it. -/
theorem State.awake_frontier {k : State → State} (hk : ∀ s, (k s).pos.frontier = s.pos.frontier) (s : State) :
    ∃ t, s.awake k = .next t ∧ t.pos.frontier = s.pos.frontier := by
  cases h : s.inReset with
  | false => exact ⟨k s, State.awake_of_released h, hk s⟩
  | true => exact ⟨s, State.awake_of_inReset h, rfl⟩

theorem State.atOnce_frontier (s : State) (p : Port) (t : Taken) :
    ∃ u, s.atOnce p t = .next u ∧ u.pos.frontier = s.pos.frontier :=
  State.awake_frontier (fun s => s.bring_frontier p t) s

theorem State.whenGranted_frontier {body : State → State}
    (hbody : ∀ s, (body s).pos.frontier = s.pos.frontier) (s : State) (p : Port) (t : Taken) :
    ∃ u, s.whenGranted p t body = .next u ∧ u.pos.frontier = s.pos.frontier := by
  refine State.awake_frontier (fun s => ?_) s
  dsimp only
  split <;> split <;> simp [hbody]

/-- R17: no command but an edge and the power-on reset moves the frontier. -/
theorem exec_frontier_of_ne {i : Instr} (s : State) (hedge : ∀ ph, i ≠ .encoderEdge ph)
    (hrelease : ∀ straps a b, i ≠ .resetNReleased straps a b) :
    ∃ t, exec i s = .next t ∧ t.pos.frontier = s.pos.frontier := by
  cases i with
  | resetNAsserted => exact ⟨_, rfl, rfl⟩
  | resetNReleased straps a b => exact absurd rfl (hrelease straps a b)
  | encoderEdge ph => exact absurd rfl (hedge ph)
  | encoderFault =>
    rw [exec, execEncoderFault]
    exact State.awake_frontier (fun s => by simp) s
  | markEdge | knifeEdge =>
    simp only [exec, execMarkEdge, execKnifeEdge]
    refine State.awake_frontier (fun s => ?_) s
    split <;> simp
  | flywheelDeadline | triggerDeadline | triggerOffDeadline | commitDeadline | missedCutDeadline =>
    exact State.awake_frontier (fun s => s.fire_frontier _) s
  | rowCreation | triggerEvent | commit | missedCutEvent | knifeEvent | reversalForcing =>
    simp only [exec, execRowCreation, execTriggerEvent, execCommit, execMissedCutEvent, execKnifeEvent,
      execReversalForcing]
    refine State.awake_frontier (fun s => ?_) s
    split <;> simp
  | offerExpiry | backoffExpiry =>
    simp only [exec, execOfferExpiry, execBackoffExpiry]
    exact State.awake_frontier (fun s => by simp) s
  | rangeStep =>
    rw [exec, execRangeStep]
    refine State.awake_frontier (fun s => ?_) s
    repeat' split
    all_goals simp
  | selectFall | selectRise | poll =>
    simp only [exec, execSelectFall, execSelectRise, execPoll]
    exact State.awake_frontier (fun s => by simp) s
  | readStatus | readRow | rangeTally | rangeForce | rangeOverrule | grade =>
    simp only [exec, execReadStatus, execReadRow, execRangeTally, execRangeForce, execRangeOverrule, execGrade]
    exact State.whenGranted_frontier (fun s => by simp) s _ _
  | takeNotice | peekNotice | fetchSummary | setAttention | portClear | readStack | readLane | jobLoadPart | jobLoad
  | jobSwitch | arm | disarm | restart | resetTracking | faultClear | readFault | lineMode | lineSet | lineClear
  | clearPocket | clearTallies | triggerRow | accept | decline | setOfferWindow =>
    exact State.atOnce_frontier s _ _

/-! ### READ_STATUS page 1 -/

theorem State.answer_reply (s : State) (p : Port) (tag : Byte) (code : ReplyCode) (result : List Byte) :
    ∃ r ∈ ((s.answer p tag code result).port p).reply, r.code = code ∧ r.result = result := by
  cases p <;> exact ⟨_, rfl, rfl, rfl⟩

/-- R175: page 1 of READ_STATUS is P, then the frontier. -/
theorem State.statusPage_one_frontier (s : State) : ((s.statusPage 1).drop 4).take 4 = bytes32 s.pos.frontier := rfl

theorem State.readStatusRequest_one (s : State) (p : Port) (tag : Byte) :
    s.readStatusRequest p tag 1 = s.answer p tag .done (s.statusPage 1) := rfl

theorem exec_readStatus_of_granted {s : State} {p : Port} {tag page : Byte} (h : s.Granted p tag (.readStatus page)) :
    exec (.readStatus p tag page) s = .next ((s.portServed p).readStatusRequest p tag page) := by
  rw [exec, execReadStatus, State.whenGranted_of_granted h]

/-- Settles O5: the edge by `PositionUnit.move_frontier`, every other command by the frame of what it carries out. -/
theorem frontierFollowsWeb : Obligations.FrontierFollowsWeb := by
  refine ⟨fun ph s h => ?_, fun straps a b s => ⟨_, rfl, rfl⟩, fun i s => exec_frontier_of_ne s, fun p tag s h => ?_⟩
  · obtain ⟨t, ht, hfrontier⟩ := exec_encoderEdge_frontier h ph
    exact ⟨t, ht, fun hpast => hfrontier.trans (if_pos hpast), fun hnot => hfrontier.trans (if_neg (not_lt.2 hnot))⟩
  · obtain ⟨r, hr, hcode, hresult⟩ := (s.portServed p).answer_reply p tag .done ((s.portServed p).statusPage 1)
    have hexec := exec_readStatus_of_granted h
    rw [State.readStatusRequest_one] at hexec
    refine ⟨_, hexec, r, hr, hcode, ?_⟩
    rw [hresult, State.statusPage_one_frontier, State.portServed_pos]

end Sys2Proof.Machine
end

section
/-! PROOFS. The fault record: what READ_FAULT reports of it, and FAULT_CLEAR, which empties it (R54). -/

namespace Sys2Proof.Machine

/-- Where the request does not look at what stands in the reply slot, the command on a port that takes its frame is the
request on the state that the frame has left (R163). -/
theorem State.atOnce_of_reply_unread {s : State} {p : Port} {t : Taken} (h : s.Ready p)
    (hk : kindPermitted (requestCode t.request) p = true) (hf : formSound s.partBuffer t = true)
    (hunread : ∀ (u : State) (r : Option Reply),
      (u.withReply p r).perform p s.partBuffer t = u.perform p s.partBuffer t) :
    s.atOnce p t = .next ((s.frameTaken p).perform p s.partBuffer t) := by
  obtain ⟨r, hr⟩ := State.atOnce_of_ready h hk hf
  rw [hr, hunread]

/-! ### READ_FAULT -/

@[simp] theorem State.withReply_readFaultRequest (s : State) (p : Port) (r : Option Reply) (tag : Byte) :
    (s.withReply p r).readFaultRequest p tag = s.readFaultRequest p tag := by
  simp only [State.readFaultRequest, State.withReply_answer, State.withReply_trk]

theorem exec_readFault_of_ready {s : State} (h : s.Ready .line) (tag : Byte) :
    exec (.readFault .line tag) s =
      .next ((s.frameTaken .line).reply .line tag .done (faultResult s.trk.fault)) := by
  calc exec (.readFault .line tag) s
      = s.atOnce .line ⟨tag, .readFault⟩ := rfl
    _ = .next ((s.frameTaken .line).readFaultRequest .line tag) :=
      State.atOnce_of_reply_unread h rfl rfl fun u r => u.withReply_readFaultRequest .line r tag
    _ = .next ((s.frameTaken .line).reply .line tag .done (faultResult s.trk.fault)) := by
      rw [State.readFaultRequest, State.answer_eq_reply, State.frameTaken_trk]

/-- R175: an empty record is eleven zeros. -/
theorem faultResult_none : faultResult none = [0, 0, 0, 0, 0, 0, 0, 0, 0, 0, 0] := by decide

/-- R53, R175: the codes count the kinds from 1, least severe first. -/
theorem FaultKind.code_eq_idxOf (k : FaultKind) :
    k.code = [FaultKind.driftLimit, .registerLost, .reversal, .missedCut, .tableFull, .encoderFault].idxOf k + 1 := by
  cases k <;> rfl

theorem presence_singleton (b : Bool) : presence [b] = [if b then 1 else 0] := by
  cases b <;> rfl

/-- R54, R175: presence of the row, kind, row, position and MORE. -/
theorem faultResult_some (r : FaultRecord) : faultResult (some r) =
    [if r.row.isSome then 1 else 0, BitVec.ofNat 8 ([FaultKind.driftLimit, .registerLost, .reversal, .missedCut,
      .tableFull, .encoderFault].idxOf r.kind + 1)] ++ bytes32 (r.row.getD 0) ++ bytes32 r.position ++
      [if r.more then 1 else 0] := by
  rw [faultResult, presence_singleton, byte1, FaultKind.code_eq_idxOf, optional32, flag1, List.singleton_append]

/-! ### FAULT_CLEAR -/

/-- Emptying the record and putting a reply into the slot concern different parts of the state. -/
theorem State.withReply_clearFault (s : State) (p : Port) (r : Option Reply) :
    { s.withReply p r with trk := { s.trk with fault := none } } =
      State.withReply { s with trk := { s.trk with fault := none } } p r := by
  cases p <;> rfl

@[simp] theorem State.withReply_faultClearRequest (s : State) (p : Port) (r : Option Reply) (tag : Byte) :
    (s.withReply p r).faultClearRequest p tag = s.faultClearRequest p tag := by
  rw [State.faultClearRequest, State.withReply_trk, State.withReply_clearFault, State.withReply_answer,
    State.faultClearRequest]

theorem exec_faultClear_of_ready {s : State} (h : s.Ready .line) (tag : Byte) :
    exec (.faultClear .line tag) s =
      .next (State.reply { s.frameTaken .line with trk := { s.trk with fault := none } } .line tag .done []) := by
  calc exec (.faultClear .line tag) s
      = s.atOnce .line ⟨tag, .faultClear⟩ := rfl
    _ = .next ((s.frameTaken .line).faultClearRequest .line tag) :=
      State.atOnce_of_reply_unread h rfl rfl fun u r => u.withReply_faultClearRequest .line r tag
    _ = .next (State.reply { s.frameTaken .line with trk := { s.trk with fault := none } } .line tag .done []) := by
      rw [State.faultClearRequest, State.answer_eq_reply, State.frameTaken_trk]

/-! ### The emptied record -/

/-- R53: an offer to an empty record fills it, with MORE clear. -/
theorem offeredRecord_none (k : FaultKind) (row : Option Word) (x : Word) :
    offeredRecord none k row x = ⟨k, row, x, false⟩ := rfl

/-- Settles O47: READ_FAULT answers with the record's eleven bytes and FAULT_CLEAR empties it, each on the state that
its frame has left and without a look at the tracking state. -/
theorem faultRecordReadAndCleared : Obligations.FaultRecordReadAndCleared := by
  refine ⟨fun s tag hready => ⟨fun hempty => ?_, fun r hr => ?_⟩,
    fun s tag hready => exec_faultClear_of_ready hready tag, offeredRecord_none⟩
  · rw [exec_readFault_of_ready hready, hempty, faultResult_none]
  · rw [exec_readFault_of_ready hready, Option.mem_def.1 hr, faultResult_some]

end Sys2Proof.Machine
end

section
/-! PROOFS. The commit of a row: what the plan switch and the pockets leave alone, and the disposition of each lane
under the list of R85. -/

namespace Sys2Proof.Machine

/-! ### What the list reads, and what the pockets leave alone -/

/-- What the list of R85 reads besides the lane's grade and its pocket: gates, cut debt and job slots. -/
def State.listInputs (s : State) : List FieldLine × Bool × List (Option Job) :=
  (s.kg.gates, s.kg.cutDebt, s.jobs.slots)

/-- What the pockets' operations leave as it was: the inputs of the list and the rows. -/
def State.besidePockets (s : State) : (List FieldLine × Bool × List (Option Job)) × RowTable := (s.listInputs, s.tab)

theorem State.listInputs_eq_iff {s t : State} : t.listInputs = s.listInputs ↔
    t.kg.gates = s.kg.gates ∧ t.kg.cutDebt = s.kg.cutDebt ∧ t.jobs.slots = s.jobs.slots := by
  simp only [State.listInputs, Prod.mk.injEq]

theorem State.besidePockets_eq_iff {s t : State} :
    t.besidePockets = s.besidePockets ↔ t.listInputs = s.listInputs ∧ t.tab = s.tab := by
  simp only [State.besidePockets, Prod.mk.injEq]

theorem State.job_of_slots_eq {s t : State} (h : t.jobs.slots = s.jobs.slots) (n : SlotNumber) : t.job n = s.job n := by
  simp only [State.job, State.validJob?, h]

@[simp] theorem State.raise_besidePockets (s : State) (n : Notice) : (s.raise n).besidePockets = s.besidePockets := by
  simp [State.besidePockets, State.listInputs]

@[simp] theorem State.modifyLane_besidePockets (s : State) (lane : Nat) (f : PocketLane → PocketLane) :
    (s.modifyLane lane f).besidePockets = s.besidePockets := rfl

@[simp] theorem State.assertSep_besidePockets (s : State) (lane : Nat) :
    (s.assertSep lane).besidePockets = s.besidePockets := rfl

@[simp] theorem State.openNew_besidePockets (s : State) (lane : Nat) (slot : SlotNumber) (target : Nat) :
    (s.openNew lane slot target).besidePockets = s.besidePockets := rfl

@[simp] theorem State.holdStack_besidePockets (s : State) (lane : Nat) (k : Stack) :
    (s.holdStack lane k).besidePockets = s.besidePockets := by
  simp [State.holdStack, State.offerNotice]

@[simp] theorem State.block_besidePockets (s : State) (lane : Nat) (row : Option Word) (f : PocketLane → PocketLane) :
    (s.block lane row f).besidePockets = s.besidePockets := by
  unfold State.block
  dsimp only
  split
  · rfl
  · simp [State.laneBlocked]

@[simp] theorem State.closeNow_besidePockets (s : State) (lane : Nat) (k : Stack) (fromReset : Bool)
    (plan : SlotNumber × Nat) : (s.closeNow lane k fromReset plan).besidePockets = s.besidePockets := by
  cases fromReset <;> simp [State.closeNow]

@[simp] theorem State.closeLane_besidePockets (s : State) (fromReset : Bool) (row : Option Word)
    (newPlan : Option (SlotNumber × Nat)) (lane : Nat) :
    (s.closeLane fromReset row newPlan lane).besidePockets = s.besidePockets := by
  unfold State.closeLane
  split
  · rfl
  · split
    · rfl
    · split
      · exact State.block_besidePockets _ _ _ _
      · exact State.closeNow_besidePockets _ _ _ _ _

@[simp] theorem State.replanLane_besidePockets (s : State) (slot : SlotNumber) (lane : Nat) :
    (s.replanLane slot lane).besidePockets = s.besidePockets := by
  unfold State.replanLane
  split <;> split <;> rfl

/-- R11: the carried switch changes pockets, plan and notices; no row, gate, slot or debt. -/
theorem State.switchCommit_besidePockets (s : State) (r : Row) :
    (s.switchCommit r).besidePockets = s.besidePockets := by
  unfold State.switchCommit
  split
  · rfl
  · next c _ =>
    split
    · rw [State.raise_besidePockets]
      refine (State.foldl_keeps State.besidePockets (fun t lane => t.replanLane_besidePockets c.new lane) _ _).trans ?_
      refine State.foldl_keeps State.besidePockets (fun t lane => ?_) _ _
      split
      · exact t.closeLane_besidePockets _ _ _ _
      · rfl
    · rfl

@[simp] theorem State.applyDecision_besidePockets (s : State) (row : Word) (lane : Nat)
    (d : Disposition × Option DivertReason) : (s.applyDecision row lane d).besidePockets = s.besidePockets := by
  unfold State.applyDecision
  split
  · rfl
  · split
    · exact State.block_besidePockets _ _ _ _
    · rfl

/-! ### Rows -/

theorem State.row?_congr {s t : State} (h : t.tab = s.tab) (n : Word) : t.row? n = s.row? n := by
  simp only [State.row?, h]

theorem State.number_of_row? {s : State} {n : Word} {r : Row} (h : s.row? n = some r) : r.number = n := by
  simpa using List.find?_some h

/-- A change that keeps row numbers changes the record that is found under its number. -/
theorem State.row?_modifyRow (s : State) (n : Word) {f : Row → Row} (hf : ∀ r, (f r).number = r.number) :
    (s.modifyRow n f).row? n = (s.row? n).map f := by
  have hnumber : ∀ x : Row, (if x.number = n then f x else x).number = x.number := fun x => by
    split <;> simp [hf]
  simp only [State.row?, State.modifyRow, List.find?_map, Function.comp_def, hnumber]
  cases hx : s.tab.rows.find? fun x => decide (x.number = n) with
  | none => rfl
  | some x =>
    have hxn : x.number = n := by simpa using List.find?_some hx
    simp [hxn]

/-! ### The list -/

theorem State.gateManual_iff (s : State) (lane : Nat) :
    s.gateManual lane = true ↔ (s.kg.gates[lane]?).map (·.mode) = some .manual := by
  unfold State.gateManual
  split <;> simp_all

theorem Grade.condemning_iff (g : Grade) : g.condemning = true ↔ g = .reject ∨ g = .forced := by
  cases g <;> simp [Grade.condemning]

/-- R85: lane entry `c` has become `d` by the first line of the list that applies, VOID by none. -/
def FollowsList (gate : Option FieldLine) (debt : Bool) (job : Job) (c d : RowLane) : Prop :=
  d = { c with disposition := d.disposition, reason := d.reason } ∧
  (c.grade = .void → d = c) ∧
  (c.grade ≠ .void →
    if gate.map (·.mode) = some .manual then d.disposition = some .manual ∧ d.reason = none
    else if debt = true then d.disposition = some .divert ∧ d.reason = some .double
    else if c.grade = .reject ∨ c.grade = .forced then d.disposition = some .divert ∧ d.reason = some .grade
    else if c.grade = .pending ∧ job.ungraded = .divert then
      d.disposition = some .divert ∧ d.reason = some .ungraded
    else if c.grade = .minor ∧ job.minor = .divert then
      d.disposition = some .divert ∧ d.reason = some .minorPolicy
    else (d.disposition = some .stack ∧ d.reason = none) ∨
      (d.disposition = some .divert ∧ d.reason = some .blocked))

theorem followsList_void (gate : Option FieldLine) (debt : Bool) (job : Job) {c : RowLane} (h : c.grade = .void) :
    FollowsList gate debt job c c :=
  ⟨rfl, fun _ => rfl, fun hne => absurd h hne⟩

/-- An active lane's entry with a decision written into it. -/
def RowLane.decided (c : RowLane) (d : Disposition × Option DivertReason) : RowLane :=
  { c with disposition := some d.1, reason := d.2 }

theorem State.decideLane_followsList (s : State) (job : Job) (debt : Bool) (lane : Nat) {c : RowLane}
    (h : c.grade ≠ .void) :
    FollowsList s.kg.gates[lane]? debt job c (c.decided (s.decideLane job debt lane c.grade)) := by
  refine ⟨rfl, fun hvoid => absurd hvoid h, fun _ => ?_⟩
  simp only [State.decideLane, State.gateManual_iff, Grade.condemning_iff, RowLane.decided]
  -- the lines of the list in their order, and a stack candidate at the end: refused, or not
  split_ifs
  · exact ⟨rfl, rfl⟩
  · exact ⟨rfl, rfl⟩
  · exact ⟨rfl, rfl⟩
  · exact ⟨rfl, rfl⟩
  · exact ⟨rfl, rfl⟩
  · exact .inr ⟨rfl, rfl⟩
  · exact .inl ⟨rfl, rfl⟩

/-! ### The lanes one by one -/

/-- The lanes of `r` below `k` have followed the list on what `s` gives it, and the others wait as they were. -/
structure DecidedBelow (s : State) (r : Row) (k : Nat) (q : Row) : Prop where
  length : q.lanes.length = r.lanes.length
  decided : ∀ i < k, ∀ c ∈ r.lanes[i]?, ∀ d ∈ q.lanes[i]?,
    FollowsList s.kg.gates[i]? s.kg.cutDebt (s.job r.slot) c d
  waiting : ∀ i, k ≤ i → q.lanes[i]? = r.lanes[i]?

theorem decidedBelow_zero (s : State) (r : Row) : DecidedBelow s r 0 r :=
  ⟨rfl, fun _ h => absurd h (Nat.not_lt_zero _), fun _ _ => rfl⟩

/-- Writing the next lane's entry by the list carries the invariant one lane on. -/
theorem DecidedBelow.modifyLane {s : State} {r q : Row} {k : Nat} (h : DecidedBelow s r k q) {f : RowLane → RowLane}
    (hf : ∀ c ∈ r.lanes[k]?, FollowsList s.kg.gates[k]? s.kg.cutDebt (s.job r.slot) c (f c)) :
    DecidedBelow s r (k + 1) (q.modifyLane k f) where
  length := by simp [Row.modifyLane, h.length]
  decided i hi c hc d hd := by
    rcases Nat.lt_succ_iff_lt_or_eq.1 hi with hlt | rfl
    · refine h.decided i hlt c hc d ?_
      simpa [Row.modifyLane, List.getElem?_modify, Nat.ne_of_gt hlt] using hd
    · have hdf : d = f c := by
        simpa [Row.modifyLane, List.getElem?_modify, h.waiting i le_rfl, Option.mem_def.1 hc, eq_comm] using hd
      exact hdf ▸ hf c hc
  waiting i hi := by
    have hne : k ≠ i := by omega
    simpa [Row.modifyLane, List.getElem?_modify, hne] using h.waiting i (by omega)

/-- A VOID lane is passed over. -/
theorem DecidedBelow.skip {s : State} {r q : Row} {k : Nat} (h : DecidedBelow s r k q)
    (hvoid : ∀ c ∈ r.lanes[k]?, c.grade = .void) : DecidedBelow s r (k + 1) q where
  length := h.length
  decided i hi c hc d hd := by
    rcases Nat.lt_succ_iff_lt_or_eq.1 hi with hlt | rfl
    · exact h.decided i hlt c hc d hd
    · have hdc : d = c := Option.mem_unique hd (h.waiting i le_rfl ▸ hc)
      rw [hdc]
      exact followsList_void _ _ _ (hvoid c hc)
  waiting i hi := h.waiting i (by omega)

theorem State.commitLane_of_void {r : Row} {lane : Nat} (h : ∀ c ∈ r.lanes[lane]?, c.grade = .void) (debt : Bool)
    (t : State) : State.commitLane r debt t lane = t := by
  unfold State.commitLane
  split
  · rfl
  · next c hc => exact if_pos (h c hc)

theorem State.commitLane_of_active {r : Row} {lane : Nat} {c : RowLane} (hc : r.lanes[lane]? = some c)
    (h : c.grade ≠ .void) (debt : Bool) (t : State) :
    State.commitLane r debt t lane =
      (t.applyDecision r.number lane (t.decideLane (t.job r.slot) debt lane c.grade)).modifyRow r.number
        (·.modifyLane lane (·.decided (t.decideLane (t.job r.slot) debt lane c.grade))) := by
  simp only [State.commitLane, hc, if_neg h]
  rfl

/-- The commit of row `r` from `s` has come to `t`, with the lanes below `k` decided. -/
structure CommittingBelow (s : State) (r : Row) (k : Nat) (t : State) : Prop where
  inputs : t.listInputs = s.listInputs
  row : ∃ q, t.row? r.number = some q ∧ DecidedBelow s r k q

theorem commitLane_committingBelow {s t : State} {r : Row} {k : Nat} (h : CommittingBelow s r k t) :
    CommittingBelow s r (k + 1) (State.commitLane r s.kg.cutDebt t k) := by
  obtain ⟨hinputs, q, hq, hdecided⟩ := h
  obtain ⟨hgates, -, hslots⟩ := State.listInputs_eq_iff.1 hinputs
  by_cases hvoid : ∀ c ∈ r.lanes[k]?, c.grade = .void
  · rw [State.commitLane_of_void hvoid]
    exact ⟨hinputs, q, hq, hdecided.skip hvoid⟩
  · push Not at hvoid
    obtain ⟨c, hc, hactive⟩ := hvoid
    rw [State.commitLane_of_active hc hactive]
    set d := t.decideLane (t.job r.slot) s.kg.cutDebt k c.grade with hd
    obtain ⟨happlied, htab⟩ := State.besidePockets_eq_iff.1 (t.applyDecision_besidePockets r.number k d)
    have hfollows : FollowsList s.kg.gates[k]? s.kg.cutDebt (s.job r.slot) c (c.decided d) := by
      rw [hd, ← hgates, ← State.job_of_slots_eq hslots]
      exact t.decideLane_followsList _ _ k hactive
    refine ⟨happlied.trans hinputs, q.modifyLane k (·.decided d), ?_, hdecided.modifyLane fun c' hc' => ?_⟩
    · rw [State.row?_modifyRow, State.row?_congr htab, hq]
      · rfl
      · exact fun _ => rfl
    · rwa [Option.mem_unique hc' hc]

theorem foldl_commitLane_committingBelow {s t : State} {r : Row} (h : CommittingBelow s r 0 t) (k : Nat) :
    CommittingBelow s r k ((List.range k).foldl (State.commitLane r s.kg.cutDebt) t) := by
  induction k with
  | zero => exact h
  | succ k ih =>
    rw [List.range_succ, List.foldl_append]
    exact commitLane_committingBelow ih

/-! ### The commit -/

theorem State.commitRow_row? (s : State) (r : Row) :
    (s.commitRow r).row? r.number =
      (((List.range r.lanes.length).foldl (State.commitLane r (s.switchCommit r).kg.cutDebt)
        (s.switchCommit r)).row? r.number).map fun x =>
          { x with double := x.double || (s.switchCommit r).kg.cutDebt, state := .committed } := by
  rw [← State.row?_modifyRow]
  · unfold State.commitRow
    dsimp only
    split <;> rfl
  · exact fun _ => rfl

/-- The commit of a row leaves it, under its number, with every lane decided. -/
theorem State.commitRow_decided {s : State} {r : Row} (h : s.row? r.number = some r) :
    ∃ q ∈ (s.commitRow r).row? r.number, DecidedBelow s r r.lanes.length q := by
  obtain ⟨hinputs, htab⟩ := State.besidePockets_eq_iff.1 (s.switchCommit_besidePockets r)
  obtain ⟨-, hdebt, -⟩ := State.listInputs_eq_iff.1 hinputs
  have hstart : CommittingBelow s r 0 (s.switchCommit r) :=
    ⟨hinputs, r, (State.row?_congr htab _).trans h, decidedBelow_zero s r⟩
  obtain ⟨-, q, hq, hdecided⟩ := foldl_commitLane_committingBelow hstart r.lanes.length
  rw [State.commitRow_row?, hdebt, hq]
  exact ⟨_, rfl, hdecided.length, hdecided.decided, hdecided.waiting⟩

/-- R84: the commit event of a TRAVELLING row outside FAULT. -/
theorem exec_commit_of_travelling {s : State} {n : Word} {rest : List TrackingEvent} {r : Row}
    (hfirst : s.EventFirst (.commit n) rest) (hrow : s.row? n = some r) (hstate : r.state = .travelling)
    (htrk : s.trk.state ≠ .fault) : exec .commit s = .next ((s.withEvents rest).commitRow r) := by
  obtain ⟨hreset, hevents⟩ := hfirst
  have hserve : (s.withEvents rest).serveCommit n = (s.withEvents rest).commitRow r := by
    have hrow' : (s.withEvents rest).row? n = some r := hrow
    simp [State.serveCommit, hrow', hstate, htrk]
  rw [exec, execCommit, State.awake_of_released hreset, hevents, ← hserve]

/-- Settles O15: the lanes are decided one after the other, each by the list on the gates, the debt and the slots that
stood before the commit, since neither the carried switch nor a decision changes these. -/
theorem commitFollowsDispositionList : Obligations.CommitFollowsDispositionList := by
  intro s n rest r hfirst hrow hstate htrk
  have hnumber := State.number_of_row? hrow
  subst hnumber
  obtain ⟨q, hq, hdecided⟩ := State.commitRow_decided (s := s.withEvents rest) hrow
  refine ⟨_, exec_commit_of_travelling hfirst hrow hstate htrk, q, hq, hdecided.length, fun i d hd => ?_⟩
  exact hdecided.decided i.val i.isLt r.lanes[i] (List.getElem?_eq_getElem i.isLt) d hd

end Sys2Proof.Machine
end

section
/-! PROOFS. What the commands keep of the field lines and the last-triggered record: the lines of lanes at or beyond the
lane limit stay at rest (R99), and only a trigger event writes the record (R112). The lemma of each operation follows the
operation's definition, one link for each change it makes. -/

namespace Sys2Proof.Machine

/-! ### What is kept -/

/-- From `u` to `s` the lane limit, the number of lane entries and the last-triggered record have stayed, and the lines
of absent lanes are at rest where they were. -/
structure LinesKept (u s : State) : Prop where
  limit : s.limit = u.limit
  lanes : s.pock.lanes.length = u.pock.lanes.length
  record : s.kg.lastTriggered = u.kg.lastTriggered
  absent : u.pock.lanes.length = u.limit → u.AbsentLinesAtRest → s.AbsentLinesAtRest

theorem FieldLine.atRest_release {l : FieldLine} (h : l.AtRest) : l.release.AtRest := by
  obtain ⟨hmode, -⟩ := h
  rw [FieldLine.release, if_pos hmode]
  exact ⟨hmode, rfl⟩

/-- Released lines are at rest where they were. -/
theorem FieldLine.drop_release_atRest {l : List FieldLine} {n : Nat} (h : ∀ x ∈ l.drop n, x.AtRest) :
    ∀ x ∈ (l.map (·.release)).drop n, x.AtRest := by
  rw [← List.map_drop]
  exact List.forall_mem_map.2 fun x hx => FieldLine.atRest_release (h x hx)

/-- A change of the elements below `n` does not show from `n` on. -/
theorem drop_mapIdx_of_eq {α : Type} {f : Nat → α → α} {n : Nat} (hf : ∀ i x, n ≤ i → f i x = x) (l : List α) :
    (l.mapIdx f).drop n = l.drop n := by
  refine List.ext_getElem? fun i => ?_
  have hkeep : f (n + i) = id := funext fun x => hf (n + i) x (Nat.le_add_right n i)
  rw [List.getElem?_drop, List.getElem?_drop, List.getElem?_mapIdx, hkeep, Option.map_id, id]

theorem State.lane_lt_of_lane? {s : State} {lane : Nat} {l : PocketLane} (h : s.lane? lane = some l) :
    lane < s.pock.lanes.length :=
  (List.getElem?_eq_some_iff.1 h).1

theorem State.lane_lt_of_openStack? {s : State} {lane : Nat} {k : Stack} (h : s.openStack? lane = some k) :
    lane < s.pock.lanes.length := by
  obtain ⟨l, hl, -⟩ := Option.bind_eq_some_iff.1 h
  exact State.lane_lt_of_lane? hl

theorem State.lane_lt_of_lineNamed {s : State} {line lane : Byte} (h : s.lineNamed line lane = true) :
    lane.toNat < s.limit :=
  of_decide_eq_true (Bool.and_eq_true_iff.1 h).2

namespace LinesKept

variable {u s : State}

theorem refl (s : State) : LinesKept s s := ⟨rfl, rfl, rfl, fun _ h => h⟩

/-- A change of no line, record, strap or lane entry. -/
theorem elsewhere (h : LinesKept u s) {inReset strapSafePin : Bool} {pos : PositionUnit} {trk : Tracker}
    {jobs : JobStore} {tab : RowTable} {tau : AccessUnit} {itrig cutDebt : Bool} {orphanCuts : Word}
    {nextId : StackId} {offerSetting : Nat} {rng : RangeUnit} {line insp deliv : PortState}
    {partBuffer : Option PartBuffer} {pending : List Instr} :
    LinesKept u { s with
      inReset := inReset, strapSafePin := strapSafePin, pos := pos, trk := trk, jobs := jobs, tab := tab, tau := tau
      kg := { s.kg with itrig := itrig, cutDebt := cutDebt, orphanCuts := orphanCuts }
      pock := { s.pock with nextId := nextId }
      offerSetting := offerSetting, rng := rng, line := line, insp := insp, deliv := deliv
      partBuffer := partBuffer, pending := pending } :=
  ⟨h.limit, h.lanes, h.record, h.absent⟩

/-- A change of lane entries that adds and removes none. -/
theorem withLanes (h : LinesKept u s) {l : List PocketLane} (hl : l.length = s.pock.lanes.length) :
    LinesKept u { s with pock := { s.pock with lanes := l } } :=
  ⟨h.limit, hl.trans h.lanes, h.record, h.absent⟩

theorem ite {t : State} {c : Prop} [Decidable c] (hs : LinesKept u s) (ht : LinesKept u t) :
    LinesKept u (if c then s else t) := by
  split
  · exact hs
  · exact ht

/-- What each step of a run keeps, the run keeps. -/
theorem foldl {α : Type} {f : State → α → State} {l : List α} (h : LinesKept u s)
    (hf : ∀ t a, LinesKept u t → LinesKept u (f t a)) : LinesKept u (l.foldl f s) := by
  induction l generalizing s with
  | nil => exact h
  | cons a l ih => exact ih (hf s a h)

/-! ### The lines themselves -/

theorem gatesToDivert (h : LinesKept u s) : LinesKept u s.gatesToDivert where
  limit := h.limit
  lanes := h.lanes
  record := h.record
  absent hlen hrest :=
    have ⟨hgates, hseps⟩ := h.absent hlen hrest
    ⟨FieldLine.drop_release_atRest hgates, hseps⟩

theorem releaseSeps (h : LinesKept u s) : LinesKept u s.releaseSeps where
  limit := h.limit
  lanes := h.lanes
  record := h.record
  absent hlen hrest :=
    have ⟨hgates, hseps⟩ := h.absent hlen hrest
    ⟨hgates, FieldLine.drop_release_atRest hseps⟩

/-- A pulse for a lane that has an entry is one below the limit. -/
theorem assertSep (h : LinesKept u s) {lane : Nat} (hlane : lane < s.pock.lanes.length) :
    LinesKept u (s.assertSep lane) where
  limit := h.limit
  lanes := h.lanes
  record := h.record
  absent hlen hrest := by
    obtain ⟨hgates, hseps⟩ := h.absent hlen hrest
    have hbelow : lane < s.limit := by rwa [h.limit, ← hlen, ← h.lanes]
    exact ⟨hgates, (List.drop_modify_of_lt _ _ _ s.kg.seps hbelow).symm ▸ hseps⟩

/-- R88 sets gates below the limit only. -/
theorem setGates (h : LinesKept u s) {r : Row} : LinesKept u (s.setGates r) where
  limit := h.limit
  lanes := h.lanes
  record := h.record
  absent hlen hrest := by
    obtain ⟨hgates, hseps⟩ := h.absent hlen hrest
    refine ⟨?_, hseps⟩
    have hdrop : (s.setGates r).kg.gates.drop s.limit = s.kg.gates.drop s.limit :=
      drop_mapIdx_of_eq (fun i l hi => if_neg fun hbelow => Nat.not_lt.2 hi hbelow.2) _
    exact hdrop ▸ hgates

/-- A line request changes a line below the limit. -/
theorem modifyLine (h : LinesKept u s) {line lane : Byte} {f : FieldLine → FieldLine} (hlane : lane.toNat < s.limit) :
    LinesKept u (s.modifyLine line lane f) := by
  unfold State.modifyLine
  split
  · exact ⟨h.limit, h.lanes, h.record, fun hlen hrest =>
      have ⟨hgates, hseps⟩ := h.absent hlen hrest
      ⟨(List.drop_modify_of_lt f _ _ s.kg.gates hlane).symm ▸ hgates, hseps⟩⟩
  · exact ⟨h.limit, h.lanes, h.record, fun hlen hrest =>
      have ⟨hgates, hseps⟩ := h.absent hlen hrest
      ⟨hgates, (List.drop_modify_of_lt f _ _ s.kg.seps hlane).symm ▸ hseps⟩⟩

/-! ### Notices, replies, deadlines and records -/

theorem modifyPort (h : LinesKept u s) {p : Port} {f : PortState → PortState} : LinesKept u (s.modifyPort p f) := by
  cases p <;> exact h.elsewhere

theorem place (h : LinesKept u s) {p : Port} {n : Notice} : LinesKept u (s.place p n) := h.modifyPort

theorem raise (h : LinesKept u s) {n : Notice} : LinesKept u (s.raise n) := by
  rw [State.raise_eq]
  exact h.elsewhere

theorem answer (h : LinesKept u s) {p : Port} {tag : Byte} {code : ReplyCode} {result : List Byte} :
    LinesKept u (s.answer p tag code result) := h.modifyPort

theorem enterState (h : LinesKept u s) {t : TrackingState} : LinesKept u (s.enterState t) := by
  unfold State.enterState
  exact h.ite h.elsewhere.raise

theorem offerFault (h : LinesKept u s) {k : FaultKind} {row : Option Word} {x : Word} :
    LinesKept u (s.offerFault k row x) := h.elsewhere

theorem enterDeadline (h : LinesKept u s) {d : Deadline} : LinesKept u (s.enterDeadline d) :=
  h.elsewhere.ite h.elsewhere

theorem dropDeadlines (h : LinesKept u s) {p : DeadlineKind → Bool} : LinesKept u (s.dropDeadlines p) := h.elsewhere

theorem dropFlywheel (h : LinesKept u s) : LinesKept u s.dropFlywheel := h.elsewhere

theorem enterFlywheel (h : LinesKept u s) {x : Word} : LinesKept u (s.enterFlywheel x) := h.dropFlywheel.enterDeadline

theorem emptyTable (h : LinesKept u s) : LinesKept u s.emptyTable := h.elsewhere

theorem staleMarks (h : LinesKept u s) : LinesKept u s.staleMarks := h.elsewhere

theorem handEvent (h : LinesKept u s) {e : TrackingEvent} : LinesKept u (s.handEvent e) := h.elsewhere

theorem withEvents (h : LinesKept u s) {l : List TrackingEvent} : LinesKept u (s.withEvents l) := h.elsewhere

theorem clearDebt (h : LinesKept u s) : LinesKept u s.clearDebt := h.elsewhere

theorem modifyRow (h : LinesKept u s) {n : Word} {f : Row → Row} : LinesKept u (s.modifyRow n f) := h.elsewhere

theorem rangeDone (h : LinesKept u s) {e : RangeEntry} {status : Nat} : LinesKept u (s.rangeDone e status) :=
  h.place

theorem abandonRanges (h : LinesKept u s) : LinesKept u s.abandonRanges :=
  (h.foldl fun _ _ ht => ht.rangeDone).elsewhere

/-! ### Stacks and the offer cycle -/

theorem modifyLane (h : LinesKept u s) {lane : Nat} {f : PocketLane → PocketLane} :
    LinesKept u (s.modifyLane lane f) := h.withLanes (List.length_modify _ _ _)

theorem modifyHeld (h : LinesKept u s) {lane : Nat} {f : Stack → Stack} : LinesKept u (s.modifyHeld lane f) :=
  h.modifyLane

theorem modifyOpen (h : LinesKept u s) {lane : Nat} {f : Stack → Stack} : LinesKept u (s.modifyOpen lane f) :=
  h.modifyLane

theorem clearPending (h : LinesKept u s) : LinesKept u s.clearPending := h.withLanes (List.length_map _)

theorem openNew (h : LinesKept u s) {lane : Nat} {slot : SlotNumber} {target : Nat} :
    LinesKept u (s.openNew lane slot target) := h.modifyLane.elsewhere

theorem offerNotice (h : LinesKept u s) {lane : Nat} {k : Stack} : LinesKept u (s.offerNotice lane k) := h.raise

theorem holdStack (h : LinesKept u s) {lane : Nat} {k : Stack} : LinesKept u (s.holdStack lane k) :=
  h.modifyLane.offerNotice

theorem block (h : LinesKept u s) {lane : Nat} {row : Option Word} {f : PocketLane → PocketLane} :
    LinesKept u (s.block lane row f) := h.modifyLane.ite h.modifyLane.raise

theorem completeStack (h : LinesKept u s) {lane : Nat} : LinesKept u (s.completeStack lane) := by
  unfold State.completeStack
  split
  · exact h
  · next hopen => exact (h.assertSep (State.lane_lt_of_openStack? hopen)).holdStack.openNew

theorem closeNow (h : LinesKept u s) {lane : Nat} (hlane : lane < s.pock.lanes.length) {k : Stack} {fromReset : Bool}
    {plan : SlotNumber × Nat} : LinesKept u (s.closeNow lane k fromReset plan) :=
  (h.ite (h.assertSep hlane)).holdStack.openNew

theorem closeLane (h : LinesKept u s) {fromReset : Bool} {row : Option Word} {newPlan : Option (SlotNumber × Nat)}
    {lane : Nat} : LinesKept u (s.closeLane fromReset row newPlan lane) := by
  unfold State.closeLane
  split
  · exact h
  · next hopen =>
    refine h.ite ?_
    split
    · exact h.block
    · exact h.closeNow (State.lane_lt_of_openStack? hopen)

theorem closeAll (h : LinesKept u s) {fromReset : Bool} : LinesKept u (s.closeAll fromReset) :=
  h.foldl fun _ _ ht => ht.closeLane

theorem closeDeferred (h : LinesKept u s) {lane : Nat} : LinesKept u (s.closeDeferred lane) := by
  unfold State.closeDeferred
  split
  · exact h
  · next hlane =>
    split
    · exact (h.ite (h.assertSep (State.lane_lt_of_lane? hlane))).holdStack.openNew.modifyLane
    · exact h

theorem removeHeld (h : LinesKept u s) {lane : Nat} {wasBlocked : Bool} :
    LinesKept u (s.removeHeld lane wasBlocked) := by
  unfold State.removeHeld
  split
  · exact h
  · exact h.modifyLane.closeDeferred.modifyLane.raise.ite h.modifyLane.closeDeferred.modifyLane

theorem declineHeld (h : LinesKept u s) {lane : Nat} : LinesKept u (s.declineHeld lane) := by
  unfold State.declineHeld
  split
  · exact h
  · exact h.modifyHeld.raise.ite h.modifyHeld

theorem expireOffer (h : LinesKept u s) {lane : Nat} : LinesKept u (s.expireOffer lane) := by
  unfold State.expireOffer
  split
  · exact h.declineHeld.ite h
  · exact h

theorem reofferHeld (h : LinesKept u s) {lane : Nat} : LinesKept u (s.reofferHeld lane) := by
  unfold State.reofferHeld
  split
  · exact h
  · exact h.modifyHeld.offerNotice

theorem expireBackoff (h : LinesKept u s) {lane : Nat} : LinesKept u (s.expireBackoff lane) := by
  unfold State.expireBackoff
  split
  · exact h.reofferHeld.ite h
  · exact h

theorem countCutLane (h : LinesKept u s) {lane : Nat} : LinesKept u (s.countCutLane lane) := by
  unfold State.countCutLane
  split
  · exact h
  · split
    · exact h.modifyHeld.expireOffer
    · exact h.modifyHeld.expireBackoff
    · exact h
    · exact h

theorem countCut (h : LinesKept u s) : LinesKept u s.countCut := h.foldl fun _ _ ht => ht.countCutLane

theorem replanLane (h : LinesKept u s) {slot : SlotNumber} {lane : Nat} : LinesKept u (s.replanLane slot lane) := by
  unfold State.replanLane
  split
  · exact h.openNew.ite h
  · exact h.modifyOpen.ite h

theorem replanAll (h : LinesKept u s) {slot : SlotNumber} : LinesKept u (s.replanAll slot) :=
  h.foldl fun _ _ ht => ht.replanLane

/-! ### Grades and ranges -/

theorem routeLate (h : LinesKept u s) {r : Row} {lane : Nat} : LinesKept u (State.routeLate r s lane) := by
  unfold State.routeLate
  dsimp only
  split
  · exact h.modifyLane.modifyLane.ite h.modifyLane
  · exact h.modifyLane

theorem warnDelivered (h : LinesKept u s) {r : Row} {lane : Nat} : LinesKept u (State.warnDelivered r s lane) := by
  unfold State.warnDelivered
  split
  · exact h.ite h.raise
  · exact h

theorem mergeRow (h : LinesKept u s) {r : Row} {g : Nat → Option Grade} : LinesKept u (s.mergeRow r g) := by
  have hlate : LinesKept u ((r.lateLanes g).foldl (State.routeLate r) (s.modifyRow r.number (·.merge g))) :=
    h.modifyRow.foldl fun _ _ ht => ht.routeLate
  exact h.modifyRow.ite (hlate.raise.foldl fun _ _ ht => ht.warnDelivered)

theorem serveForcing (h : LinesKept u s) : LinesKept u s.serveForcing := by
  refine h.foldl fun t n ht => ?_
  unfold State.forceRow
  split
  · exact ht
  · exact ht.mergeRow

theorem stepRow (h : LinesKept u s) {e : RangeEntry} : LinesKept u (s.stepRow e).1 := by
  unfold State.stepRow State.stepFound
  split
  · split
    · exact h.mergeRow
    · exact h.modifyRow.ite h
    · exact h
  · exact h
  · exact h

theorem stepHead (h : LinesKept u s) {e : RangeEntry} {rest : List RangeEntry} : LinesKept u (s.stepHead e rest) :=
  h.stepRow.elsewhere.rangeDone.ite h.stepRow.elsewhere

/-! ### The tracker and the creation of rows -/

theorem fatalFault (h : LinesKept u s) {k : FaultKind} {row : Option Word} {x : Word} :
    LinesKept u (s.fatalFault k row x) :=
  h.offerFault.ite h.dropFlywheel.gatesToDivert.abandonRanges.offerFault.raise.enterState

theorem enterIdle (h : LinesKept u s) : LinesKept u s.enterIdle :=
  h.dropFlywheel.elsewhere.abandonRanges.closeAll.elsewhere.enterState

theorem endDrain (h : LinesKept u s) : LinesKept u s.endDrain := h.enterIdle.ite h

theorem reportReversal (h : LinesKept u s) : LinesKept u s.reportReversal := h.raise.offerFault

theorem reverse (h : LinesKept u s) : LinesKept u s.reverse := by
  unfold State.reverse
  split
  · exact h.handEvent.dropFlywheel.reportReversal.enterState
  · exact h.handEvent.dropFlywheel.reportReversal.enterState
  · exact h.handEvent.reportReversal
  · exact h.reportReversal
  · exact h

theorem checkReversal (h : LinesKept u s) : LinesKept u s.checkReversal := by
  unfold State.checkReversal
  split
  · exact h
  · exact h.elsewhere.ite (h.elsewhere.reverse.ite h)

theorem armReversalCheck (h : LinesKept u s) : LinesKept u s.armReversalCheck := h.elsewhere.checkReversal

theorem retireOldest (h : LinesKept u s) : LinesKept u s.retireOldest := by
  unfold State.retireOldest
  split
  · exact h
  · exact h.dropDeadlines.elsewhere

theorem retain (h : LinesKept u s) : LinesKept u s.retain := h.retireOldest.ite h

theorem room? (h : LinesKept u s) {t : State} (ht : s.room? = some t) : LinesKept u t := by
  revert ht
  unfold State.room?
  split
  · rintro ⟨⟩
    exact h
  · split
    · rintro ⟨⟩
      exact h
    · split
      · rintro ⟨⟩
        exact h.retireOldest
      · nofun

theorem driftLimit (h : LinesKept u s) {row : Word} {bound : Int} : LinesKept u (s.driftLimit row bound) :=
  h.raise.offerFault

theorem applySwitch (h : LinesKept u s) : LinesKept u s.applySwitch := by
  unfold State.applySwitch
  split
  · exact h
  · exact h.elsewhere.ite h

theorem filterRepeat (h : LinesKept u s) {pm : Word} : LinesKept u (s.filterRepeat pm) := by
  unfold State.filterRepeat
  split
  · exact h
  · exact (h.elsewhere.driftLimit.ite h.elsewhere).ite h

theorem insertRow (h : LinesKept u s) {r : Row} : LinesKept u (s.insertRow r) :=
  h.elsewhere.enterDeadline.enterDeadline.enterDeadline

theorem renewFlywheel (h : LinesKept u s) : LinesKept u s.renewFlywheel := h.enterFlywheel

theorem createSensed (h : LinesKept u s) {pm : Word} : LinesKept u (s.createSensed pm) := by
  unfold State.createSensed
  split
  · exact h.fatalFault
  · next hroom => exact (h.room? hroom).applySwitch.filterRepeat.elsewhere.insertRow.renewFlywheel

theorem createResync (h : LinesKept u s) {pm : Word} : LinesKept u (s.createResync pm) := by
  unfold State.createResync
  split
  · exact h.fatalFault
  · next hroom => exact (h.room? hroom).applySwitch.elsewhere.elsewhere.insertRow.renewFlywheel.raise.enterState

theorem loseRegister (h : LinesKept u s) {row : Word} : LinesKept u (s.loseRegister row) :=
  h.dropFlywheel.raise.offerFault.enterState

theorem createFlywheel (h : LinesKept u s) : LinesKept u s.createFlywheel := by
  unfold State.createFlywheel
  split
  · exact h.fatalFault
  · next hroom =>
    have hswitched := (h.room? hroom).applySwitch
    exact hswitched.elsewhere.insertRow.raise.loseRegister.ite hswitched.elsewhere.insertRow.raise.renewFlywheel

theorem serveMark (h : LinesKept u s) {x : Word} {live : Bool} : LinesKept u (s.serveMark x live) := by
  unfold State.serveMark
  split
  · exact h.createResync
  · exact h.modifyPort.ite h.createSensed
  · exact h

theorem serveFlywheel (h : LinesKept u s) {x : Word} : LinesKept u (s.serveFlywheel x) :=
  h.elsewhere.createFlywheel.ite h

/-! ### Commits, cuts and missed cuts -/

theorem switchCommit (h : LinesKept u s) {r : Row} : LinesKept u (s.switchCommit r) := by
  unfold State.switchCommit
  split
  · exact h
  · refine LinesKept.ite (LinesKept.raise (LinesKept.elsewhere (LinesKept.foldl (h.foldl ?_) ?_))) h
    · exact fun _ _ ht => ht.closeLane.ite ht
    · exact fun _ _ ht => ht.replanLane

theorem applyDecision (h : LinesKept u s) {row : Word} {lane : Nat} {d : Disposition × Option DivertReason} :
    LinesKept u (s.applyDecision row lane d) := h.modifyLane.ite (h.block.ite h)

theorem commitLane (h : LinesKept u s) {r : Row} {debt : Bool} {lane : Nat} :
    LinesKept u (State.commitLane r debt s lane) := by
  unfold State.commitLane
  split
  · exact h
  · exact h.ite h.applyDecision.modifyRow

theorem commitRow (h : LinesKept u s) {r : Row} : LinesKept u (s.commitRow r) := by
  have hdecided : LinesKept u ((List.range r.lanes.length).foldl (State.commitLane r (s.switchCommit r).kg.cutDebt)
      (s.switchCommit r)) := h.switchCommit.foldl fun _ _ ht => ht.commitLane
  unfold State.commitRow
  dsimp only
  split
  · exact hdecided.modifyRow.elsewhere.setGates
  · exact hdecided.modifyRow.elsewhere

theorem serveCommit (h : LinesKept u s) {n : Word} : LinesKept u (s.serveCommit n) := by
  unfold State.serveCommit
  split
  · exact h
  · exact h.ite h.commitRow

theorem land (h : LinesKept u s) {r : Row} {misregistered : Bool} {lane : Nat} {c : RowLane} :
    LinesKept u (State.land r misregistered s lane c) := by
  unfold State.land
  dsimp only
  split
  · exact h.modifyLane
  · exact h.modifyLane.modifyOpen.modifyRow.completeStack.ite h.modifyLane.modifyOpen.modifyRow

theorem dispatchLane (h : LinesKept u s) {r : Row} {misregistered : Bool} {lane : Nat} :
    LinesKept u (State.dispatchLane r misregistered s lane) := by
  unfold State.dispatchLane
  split
  · exact h
  · refine h.ite ?_
    split
    · exact h.land
    · exact h.modifyLane
    · exact h.modifyLane.modifyOpen
    · exact h

theorem adapt (h : LinesKept u s) {row : Word} {e : Int} : LinesKept u (s.adapt row e) :=
  h.elsewhere.driftLimit.ite h.elsewhere

theorem cutRow (h : LinesKept u s) {r : Row} {x : Word} : LinesKept u (s.cutRow r x) := by
  refine LinesKept.endDrain (LinesKept.gatesToDivert (LinesKept.retain (LinesKept.dropDeadlines
    (LinesKept.modifyRow ?_))))
  have hlanded : ∀ {t b}, LinesKept u t →
      LinesKept u ((List.range r.lanes.length).foldl (State.dispatchLane r b) t.releaseSeps.countCut) :=
    fun ht => ht.releaseSeps.countCut.foldl fun _ _ hl => hl.dispatchLane
  exact (hlanded (h.adapt.ite h)).ite (hlanded (h.adapt.ite h)).modifyRow.raise

theorem orphanCut (h : LinesKept u s) {x : Word} : LinesKept u (s.orphanCut x) :=
  h.releaseSeps.countCut.gatesToDivert.elsewhere.raise

theorem serveKnife (h : LinesKept u s) {x : Word} : LinesKept u (s.serveKnife x) := by
  unfold State.serveKnife
  split
  · exact h.orphanCut.ite h.cutRow
  · exact h.orphanCut

theorem missLane (h : LinesKept u s) {r : Row} {lane : Nat} : LinesKept u (State.missLane r s lane) := by
  unfold State.missLane
  split
  · exact h
  · exact h.ite h.modifyLane

theorem missRow (h : LinesKept u s) {r : Row} {x : Word} : LinesKept u (s.missRow r x) := by
  have hmissed : LinesKept u ((List.range r.lanes.length).foldl (State.missLane r) s) :=
    h.foldl fun _ _ ht => ht.missLane
  exact hmissed.modifyRow.gatesToDivert.elsewhere.raise.offerFault.retain.endDrain

theorem serveMissedCut (h : LinesKept u s) {n x : Word} : LinesKept u (s.serveMissedCut n x) := by
  unfold State.serveMissedCut
  split
  · exact h
  · exact h.missRow.ite h

/-! ### Requests -/

theorem emptyPartBuffer (h : LinesKept u s) {p : Port} : LinesKept u (s.emptyPartBuffer p) := h.elsewhere.ite h

theorem readNotice (h : LinesKept u s) {p : Port} {tag page : Byte} {remove : Bool} :
    LinesKept u (s.readNotice p tag page remove) := by
  unfold State.readNotice
  refine h.answer.ite ?_
  split
  · exact h.answer
  · exact h.modifyPort.answer

theorem setAttentionRequest (h : LinesKept u s) {p : Port} {tag level : Byte} :
    LinesKept u (s.setAttentionRequest p tag level) := by
  unfold State.setAttentionRequest
  split
  · exact h.answer
  · exact h.modifyPort.answer

theorem portClearRequest (h : LinesKept u s) {p : Port} {tag : Byte} : LinesKept u (s.portClearRequest p tag) :=
  h.modifyPort.emptyPartBuffer.answer

theorem readStatusRequest (h : LinesKept u s) {p : Port} {tag page : Byte} :
    LinesKept u (s.readStatusRequest p tag page) := h.answer.ite h.answer

theorem readRowRequest (h : LinesKept u s) {p : Port} {tag : Byte} {row : Word} {page : Byte} :
    LinesKept u (s.readRowRequest p tag row page) := by
  unfold State.readRowRequest
  refine h.answer.ite ?_
  split
  · exact h.answer
  · exact h.raise.answer
  · exact h.answer

theorem readStackRequest (h : LinesKept u s) {p : Port} {tag : Byte} {id : StackId} {page : Byte} :
    LinesKept u (s.readStackRequest p tag id page) := by
  unfold State.readStackRequest
  refine h.answer.ite ?_
  split
  · exact h.answer
  · exact h.answer

theorem readLaneRequest (h : LinesKept u s) {p : Port} {tag lane page : Byte} :
    LinesKept u (s.readLaneRequest p tag lane page) := h.answer.ite h.answer

theorem requestRange (h : LinesKept u s) {p : Port} {tag : Byte} {kind : RangeKind} {first : Word}
    {length : BitVec 16} {mask : Byte} : LinesKept u (s.requestRange p tag kind first length mask) := by
  unfold State.requestRange
  split
  · exact h.answer
  · exact h.elsewhere.answer

theorem loadJob (h : LinesKept u s) {p : Port} {tag : Byte} {part : JobPart} {rest : JobRest} :
    LinesKept u (s.loadJob p tag part rest) := by
  unfold State.loadJob
  refine h.answer.ite ?_
  split
  · exact h.answer
  · exact h.elsewhere.answer.ite h.elsewhere.answer

theorem jobLoadRequest (h : LinesKept u s) {p : Port} {tag : Byte} {held : Option PartBuffer} {rest : JobRest} :
    LinesKept u (s.jobLoadRequest p tag held rest) := by
  unfold State.jobLoadRequest
  split
  · exact h.loadJob
  · exact h.answer

theorem schedule (h : LinesKept u s) {w : Option ScheduledSwitch} : LinesKept u (s.schedule w) := h.elsewhere

theorem switchJob (h : LinesKept u s) {p : Port} {tag slot : Byte} {atRow : Word} :
    LinesKept u (s.switchJob p tag slot atRow) := by
  unfold State.switchJob
  split
  · exact h.answer
  · refine h.answer.ite (h.answer.ite ?_)
    split
    · exact h.answer
    · exact h.schedule.answer.ite (h.answer.ite h.schedule.answer)

theorem armSlot (h : LinesKept u s) {n : SlotNumber} {job : Job} : LinesKept u (s.armSlot n job) :=
  h.elsewhere.elsewhere.elsewhere.replanAll.enterState.armReversalCheck

theorem armRequest (h : LinesKept u s) {p : Port} {tag slot : Byte} : LinesKept u (s.armRequest p tag slot) := by
  unfold State.armRequest
  refine h.answer.ite ?_
  split
  · exact h.answer
  · exact h.armSlot.answer

theorem disarmRequest (h : LinesKept u s) {p : Port} {tag : Byte} : LinesKept u (s.disarmRequest p tag) := by
  unfold State.disarmRequest
  split
  · exact (h.dropFlywheel.enterState.ite h.dropFlywheel.enterIdle).answer
  · exact (h.dropFlywheel.enterState.ite h.dropFlywheel.enterIdle).answer
  · exact h.answer
  · exact h.answer
  · exact h.answer

theorem restartTracking (h : LinesKept u s) : LinesKept u s.restartTracking :=
  h.dropFlywheel.emptyTable.staleMarks.abandonRanges.clearDebt.releaseSeps.clearPending.elsewhere.enterState
    |>.armReversalCheck

theorem restartRequest (h : LinesKept u s) {p : Port} {tag : Byte} : LinesKept u (s.restartRequest p tag) :=
  h.answer.ite h.restartTracking.answer

theorem resetTracking (h : LinesKept u s) : LinesKept u s.resetTracking :=
  h.dropFlywheel.emptyTable.staleMarks.elsewhere.abandonRanges.gatesToDivert.releaseSeps.clearDebt.clearPending.closeAll
    |>.elsewhere.enterState

theorem lineModeRequest (h : LinesKept u s) {p : Port} {tag line lane mode : Byte} :
    LinesKept u (s.lineModeRequest p tag line lane mode) := by
  unfold State.lineModeRequest
  split
  · exact h.answer
  · next hgood =>
    obtain ⟨hnamed, -⟩ := not_or.1 hgood
    exact h.answer.ite (h.modifyLine (State.lane_lt_of_lineNamed (by simpa using hnamed))).answer

theorem lineSetRequest (h : LinesKept u s) {p : Port} {tag line lane : Byte} :
    LinesKept u (s.lineSetRequest p tag line lane) := by
  unfold State.lineSetRequest
  split
  · exact h.answer
  · next hgood => exact (h.modifyLine (State.lane_lt_of_lineNamed (by simpa using hgood))).answer

theorem lineClearRequest (h : LinesKept u s) {p : Port} {tag line lane : Byte} :
    LinesKept u (s.lineClearRequest p tag line lane) := by
  unfold State.lineClearRequest
  split
  · exact h.answer
  · next hgood => exact (h.modifyLine (State.lane_lt_of_lineNamed (by simpa using hgood))).answer

theorem clearHeld (h : LinesKept u s) {lane : Nat} {wasBlocked : Bool} :
    LinesKept u (s.clearHeld lane wasBlocked) := by
  unfold State.clearHeld
  split
  · exact h
  · exact h.raise.removeHeld

theorem clearPocketRequest (h : LinesKept u s) {p : Port} {tag lane scope : Byte} :
    LinesKept u (s.clearPocketRequest p tag lane scope) := by
  unfold State.clearPocketRequest State.clearPocketHeld State.clearPocketAll
  refine h.answer.ite (LinesKept.ite ?_ ?_)
  · split
    · exact h.answer
    · exact h.clearHeld.answer
  · dsimp only
    split
    · exact h.answer
    · exact h.raise.modifyLane.clearHeld.openNew.answer
    · exact h.clearHeld.openNew.answer

theorem clearTalliesRequest (h : LinesKept u s) {p : Port} {tag mask : Byte} :
    LinesKept u (s.clearTalliesRequest p tag mask) := h.answer.ite (h.withLanes List.length_mapIdx).answer

theorem gradeRow (h : LinesKept u s) {p : Port} {tag : Byte} {row : Word} {mask : Byte} {grades : List Byte} :
    LinesKept u (s.gradeRow p tag row mask grades) := by
  unfold State.gradeRow
  refine h.answer.ite ?_
  split
  · exact h.raise.answer
  · exact h.answer
  · exact h.mergeRow.answer

theorem triggerRowRequest (h : LinesKept u s) {p : Port} {tag : Byte} : LinesKept u (s.triggerRowRequest p tag) := by
  unfold State.triggerRowRequest
  split
  · exact h.answer
  · exact h.answer

theorem acceptRequest (h : LinesKept u s) {p : Port} {tag : Byte} {id : StackId} {counted : Option (BitVec 16)} :
    LinesKept u (s.acceptRequest p tag id counted) := by
  unfold State.acceptRequest
  split
  · exact h.answer
  · exact h.answer
  · exact (h.raise.ite h).removeHeld.answer

theorem declineRequest (h : LinesKept u s) {p : Port} {tag : Byte} {id : StackId} :
    LinesKept u (s.declineRequest p tag id) := by
  unfold State.declineRequest
  split
  · exact h.answer
  · exact h.answer
  · exact h.answer.ite h.declineHeld.answer

theorem perform (h : LinesKept u s) {p : Port} {held : Option PartBuffer} {t : Taken} :
    LinesKept u (s.perform p held t) := by
  obtain ⟨tag, request⟩ := t
  cases request with
  | takeNotice | peekNotice => exact h.readNotice
  | fetchSummary =>
    simp only [State.perform, State.fetchSummaryRequest]
    exact h.answer.modifyPort
  | setAttention => exact h.setAttentionRequest
  | portClear => exact h.portClearRequest
  | readStack => exact h.readStackRequest
  | readLane => exact h.readLaneRequest
  | jobLoad => exact h.jobLoadRequest
  | jobSwitch => exact h.switchJob
  | arm => exact h.armRequest
  | disarm => exact h.disarmRequest
  | restart => exact h.restartRequest
  | resetTracking => exact h.resetTracking.answer
  | readFault => exact h.answer
  | jobLoadPart | faultClear | setOfferWindow => exact h.elsewhere.answer
  | lineMode => exact h.lineModeRequest
  | lineSet => exact h.lineSetRequest
  | lineClear => exact h.lineClearRequest
  | clearPocket => exact h.clearPocketRequest
  | clearTallies => exact h.clearTalliesRequest
  | triggerRow => exact h.triggerRowRequest
  | accept => exact h.acceptRequest
  | decline => exact h.declineRequest
  | readStatus | readRow | rangeTally | rangeForce | rangeOverrule | grade =>
    simp only [State.perform]
    exact h.modifyPort

/-! ### Exchanges and the taking of frames -/

theorem beginExchange (h : LinesKept u s) {p : Port} : LinesKept u (s.beginExchange p) := by
  unfold State.beginExchange
  split
  · exact h
  · exact h.modifyPort

theorem take (h : LinesKept u s) {p : Port} {t : Taken} : LinesKept u (s.take p t) :=
  h.emptyPartBuffer.answer.ite (h.emptyPartBuffer.answer.ite h.emptyPartBuffer.perform)

theorem takeFrame (h : LinesKept u s) {p : Port} {f : List Byte} : LinesKept u (s.takeFrame p f) := by
  unfold State.takeFrame
  refine h.emptyPartBuffer.answer.ite (h.emptyPartBuffer.answer.ite ?_)
  split
  · exact h.emptyPartBuffer.answer
  · exact h.take

theorem endExchange (h : LinesKept u s) {p : Port} {f : List Byte} : LinesKept u (s.endExchange p f) := by
  unfold State.endExchange
  split
  · exact h
  · next x _ =>
    have hclosed : LinesKept u (s.closeExchange p x) := h.modifyPort
    exact LinesKept.ite h.modifyPort
      (hclosed.ite (hclosed.takeFrame.ite (LinesKept.ite hclosed.modifyPort hclosed.takeFrame)))

theorem bring (h : LinesKept u s) {p : Port} {t : Taken} : LinesKept u (s.bring p t) := by
  unfold State.bring State.endExchangeWith
  split
  · exact h.beginExchange
  · next x _ =>
    have hclosed : LinesKept u ((s.beginExchange p).closeExchange p x) := h.beginExchange.modifyPort
    exact LinesKept.ite hclosed.modifyPort hclosed.take

/-! ### Deadlines handed on -/

theorem handOn (h : LinesKept u s) {d : Deadline} : LinesKept u (s.handOn d) := by
  rw [State.handOn_eq]
  exact h.elsewhere

theorem fire (h : LinesKept u s) {k : DeadlineKind} : LinesKept u (s.fire k) := by
  unfold State.fire
  split
  · exact h
  · exact h.elsewhere.handOn

theorem handAll (h : LinesKept u s) : LinesKept u s.handAll := h.elsewhere.foldl fun _ _ ht => ht.handOn

end LinesKept

/-! ### The commands -/

/-- A command whose effect out of reset keeps the lines answers a next state that keeps them. -/
theorem State.awake_linesKept {k : State → State} (hk : ∀ s, LinesKept s (k s)) (s : State) :
    ∃ t, s.awake k = .next t ∧ LinesKept s t := by
  cases h : s.inReset with
  | false => exact ⟨k s, State.awake_of_released h, hk s⟩
  | true => exact ⟨s, State.awake_of_inReset h, .refl s⟩

theorem State.atOnce_linesKept (s : State) (p : Port) (t : Taken) : ∃ u, s.atOnce p t = .next u ∧ LinesKept s u :=
  State.awake_linesKept (fun s => (LinesKept.refl s).bring) s

theorem State.whenGranted_linesKept {body : State → State} (hbody : ∀ {u s}, LinesKept u s → LinesKept u (body s))
    (s : State) (p : Port) (t : Taken) : ∃ u, s.whenGranted p t body = .next u ∧ LinesKept s u := by
  refine State.awake_linesKept (fun s => ?_) s
  have hbrought : LinesKept s (if (s.port p).request = some t then s else s.bring p t) :=
    (LinesKept.refl s).ite (LinesKept.refl s).bring
  exact (hbody hbrought.elsewhere).ite hbrought

/-- Every command but a trigger event and the power-on reset keeps the lines of absent lanes and the last-triggered
record. -/
theorem exec_linesKept {i : Instr} (s : State) (htrigger : i ≠ .triggerEvent)
    (hrelease : ∀ straps a b, i ≠ .resetNReleased straps a b) : ∃ t, exec i s = .next t ∧ LinesKept s t := by
  cases i with
  | resetNAsserted => exact ⟨_, rfl, (LinesKept.refl s).elsewhere⟩
  | resetNReleased straps a b => exact absurd rfl (hrelease straps a b)
  | triggerEvent => exact absurd rfl htrigger
  | encoderEdge => exact State.awake_linesKept (fun s => (LinesKept.refl s).handAll.elsewhere.checkReversal) s
  | encoderFault => exact State.awake_linesKept (fun s => (LinesKept.refl s).elsewhere.fatalFault) s
  | markEdge | knifeEdge =>
    simp only [exec, execMarkEdge, execKnifeEdge]
    exact State.awake_linesKept (fun s => (LinesKept.refl s).ite (LinesKept.refl s).handEvent) s
  | flywheelDeadline | triggerDeadline | triggerOffDeadline | commitDeadline | missedCutDeadline =>
    exact State.awake_linesKept (fun s => (LinesKept.refl s).fire) s
  | rowCreation =>
    rw [exec, execRowCreation]
    refine State.awake_linesKept (fun s => ?_) s
    split
    · exact (LinesKept.refl s).withEvents.serveMark
    · exact (LinesKept.refl s).withEvents.serveFlywheel
    · exact .refl s
  | commit =>
    rw [exec, execCommit]
    refine State.awake_linesKept (fun s => ?_) s
    split
    · exact (LinesKept.refl s).withEvents.serveCommit
    · exact .refl s
  | missedCutEvent =>
    rw [exec, execMissedCutEvent]
    refine State.awake_linesKept (fun s => ?_) s
    split
    · exact (LinesKept.refl s).withEvents.serveMissedCut
    · exact .refl s
  | knifeEvent =>
    rw [exec, execKnifeEvent]
    refine State.awake_linesKept (fun s => ?_) s
    split
    · exact (LinesKept.refl s).withEvents.serveKnife
    · exact .refl s
  | reversalForcing =>
    rw [exec, execReversalForcing]
    refine State.awake_linesKept (fun s => ?_) s
    split
    · exact (LinesKept.refl s).withEvents.serveForcing
    · exact .refl s
  | offerExpiry => exact State.awake_linesKept (fun s => (LinesKept.refl s).expireOffer) s
  | backoffExpiry => exact State.awake_linesKept (fun s => (LinesKept.refl s).expireBackoff) s
  | rangeStep =>
    rw [exec, execRangeStep]
    refine State.awake_linesKept (fun t => LinesKept.ite ?_ (.refl t)) s
    split
    · exact .refl t
    · exact (LinesKept.refl t).elsewhere.stepHead
  | selectFall => exact State.awake_linesKept (fun s => (LinesKept.refl s).beginExchange) s
  | selectRise => exact State.awake_linesKept (fun s => (LinesKept.refl s).endExchange) s
  | poll => exact State.awake_linesKept (fun s => (LinesKept.refl s).beginExchange.endExchange) s
  | readStatus => exact State.whenGranted_linesKept (·.readStatusRequest) s _ _
  | readRow => exact State.whenGranted_linesKept (·.readRowRequest) s _ _
  | rangeTally | rangeForce | rangeOverrule => exact State.whenGranted_linesKept (·.requestRange) s _ _
  | grade => exact State.whenGranted_linesKept (·.gradeRow) s _ _
  | takeNotice | peekNotice | fetchSummary | setAttention | portClear | readStack | readLane | jobLoadPart | jobLoad
  | jobSwitch | arm | disarm | restart | resetTracking | faultClear | readFault | lineMode | lineSet | lineClear
  | clearPocket | clearTallies | triggerRow | accept | decline | setOfferWindow =>
    exact State.atOnce_linesKept s _ _

/-- The state with the last-triggered record replaced. -/
def State.withLastTriggered (s : State) (d : Option (Word × Word)) : State :=
  { s with kg := { s.kg with lastTriggered := d } }

/-- R110: a trigger event changes the last-triggered record, and no line. -/
theorem State.serveTrigger_linesKept (s : State) (n : Word) :
    ∃ d, LinesKept (s.withLastTriggered d) (s.serveTrigger n) := by
  unfold State.serveTrigger
  split
  · exact ⟨s.kg.lastTriggered, .refl s⟩
  · next r _ =>
    exact ⟨some (n, r.trigger),
      (LinesKept.refl (s.withLastTriggered (some (n, r.trigger)))).elsewhere.dropDeadlines.enterDeadline⟩

theorem exec_triggerEvent_linesKept (s : State) :
    ∃ d t, exec .triggerEvent s = .next t ∧ LinesKept (s.withLastTriggered d) t := by
  rw [exec, execTriggerEvent]
  cases h : s.inReset with
  | true => exact ⟨s.kg.lastTriggered, s, State.awake_of_inReset h, .refl s⟩
  | false =>
    rw [State.awake_of_released h]
    split
    · next n rest _ =>
      obtain ⟨d, hd⟩ := (s.withEvents rest).serveTrigger_linesKept n
      exact ⟨d, _, rfl, hd.limit, hd.lanes, hd.record, hd.absent⟩
    · exact ⟨s.kg.lastTriggered, s, rfl, .refl s⟩

end Sys2Proof.Machine
end

section
/-! PROOFS. The lines of absent lanes: at rest after power-on and every step, and out of reach of the line requests
(R99, R114, R115). -/

namespace Sys2Proof.Machine

/-! ### Steps and the power-on reset -/

theorem FieldLine.atReset_atRest : FieldLine.atReset.AtRest := ⟨rfl, rfl⟩

/-- At power-on each lane below the limit has its entry, and every line is at rest (R99, R116, R135). -/
theorem powerOn_absentLinesAtRest (straps : Straps) (a b : Bool) (queue : List Instr) :
    (powerOn straps a b queue).pock.lanes.length = (powerOn straps a b queue).limit ∧
      (powerOn straps a b queue).AbsentLinesAtRest := by
  have hrest : ∀ n, ∀ l ∈ (List.replicate Config.lineCount FieldLine.atReset).drop n, l.AtRest := fun n l hl =>
    List.eq_of_mem_replicate (List.mem_of_mem_drop hl) ▸ FieldLine.atReset_atRest
  exact ⟨List.length_replicate, hrest _, hrest _⟩

theorem LinesKept.absentLinesAtRest {u s : State} (h : LinesKept u s) (hlen : u.pock.lanes.length = u.limit)
    (hrest : u.AbsentLinesAtRest) : s.pock.lanes.length = s.limit ∧ s.AbsentLinesAtRest :=
  ⟨h.lanes.trans (hlen.trans h.limit.symm), h.absent hlen hrest⟩

/-- The lines of absent lanes stay at rest under every command. -/
theorem exec_absentLinesAtRest {i : Instr} {s t : State} (hlen : s.pock.lanes.length = s.limit)
    (hrest : s.AbsentLinesAtRest) (ht : exec i s = .next t) :
    t.pock.lanes.length = t.limit ∧ t.AbsentLinesAtRest := by
  by_cases htrigger : i = .triggerEvent
  · subst htrigger
    obtain ⟨d, v, hv, hkept⟩ := exec_triggerEvent_linesKept s
    cases hv.symm.trans ht
    exact hkept.absentLinesAtRest hlen hrest
  · by_cases hrelease : ∃ straps a b, i = .resetNReleased straps a b
    · obtain ⟨straps, a, b, rfl⟩ := hrelease
      cases ht
      exact powerOn_absentLinesAtRest straps a b s.pending
    · push Not at hrelease
      obtain ⟨v, hv, hkept⟩ := exec_linesKept s htrigger hrelease
      cases hv.symm.trans ht
      exact hkept.absentLinesAtRest hlen hrest

/-! ### The line requests -/

/-- A request that is refused whatever stands in the reply slot answers so on the state that its frame has left. -/
theorem State.atOnce_of_refused {s : State} {p : Port} {t : Taken} {code : ReplyCode} (h : s.Ready p)
    (hk : kindPermitted (requestCode t.request) p = true) (hf : formSound s.partBuffer t = true)
    (hrefused : ∀ r, ((s.frameTaken p).withReply p r).perform p s.partBuffer t =
      ((s.frameTaken p).withReply p r).answer p t.tag code []) :
    s.atOnce p t = .next ((s.frameTaken p).reply p t.tag code []) := by
  obtain ⟨r, hr⟩ := State.atOnce_of_ready h hk hf
  rw [hr, hrefused, State.withReply_answer, State.answer_eq_reply]

/-- A lane at or beyond the limit is no good lane of a line request, whatever frame has been taken. -/
theorem State.not_lineNamed_of_absent {s : State} {lane : Byte} (h : s.limit ≤ lane.toNat) (line : Byte) (p : Port)
    (r : Option Reply) : ((s.frameTaken p).withReply p r).lineNamed line lane = false := by
  have hlimit : ((s.frameTaken p).withReply p r).limit = s.limit := by cases p <;> rfl
  simp [State.lineNamed, State.laneExists, hlimit, h]

theorem exec_lineMode_of_absent {s : State} {lane : Byte} (h : s.Ready .line) (hlane : s.limit ≤ lane.toNat)
    (tag line mode : Byte) : exec (.lineMode .line tag line lane mode) s =
      .next ((s.frameTaken .line).reply .line tag .badArg []) :=
  State.atOnce_of_refused (t := ⟨tag, .lineMode line lane mode⟩) h rfl rfl fun r =>
    if_pos (.inl (by rw [State.not_lineNamed_of_absent hlane]; rfl))

theorem exec_lineSet_of_absent {s : State} {lane : Byte} (h : s.Ready .line) (hlane : s.limit ≤ lane.toNat)
    (tag line : Byte) : exec (.lineSet .line tag line lane) s =
      .next ((s.frameTaken .line).reply .line tag .badArg []) :=
  State.atOnce_of_refused (t := ⟨tag, .lineSet line lane⟩) h rfl rfl fun r =>
    if_pos (by rw [State.not_lineNamed_of_absent hlane]; rfl)

theorem exec_lineClear_of_absent {s : State} {lane : Byte} (h : s.Ready .line) (hlane : s.limit ≤ lane.toNat)
    (tag line : Byte) : exec (.lineClear .line tag line lane) s =
      .next ((s.frameTaken .line).reply .line tag .badArg []) :=
  State.atOnce_of_refused (t := ⟨tag, .lineClear line lane⟩) h rfl rfl fun r =>
    if_pos (by rw [State.not_lineNamed_of_absent hlane]; rfl)

/-- Settles O57: a step is the front command, under which absent lines stay at rest; the line requests judge the lane
before anything else. -/
theorem absentLanesStayAtRest : Obligations.AbsentLanesStayAtRest := by
  refine ⟨fun s t hlen hrest hstep => ?_, fun straps a b s => ?_, fun s tag line lane mode hlane hready => ?_⟩
  · cases hpending : s.pending with
    | nil =>
      rw [step_of_nil hpending] at hstep
      cases hstep
      exact ⟨hlen, hrest⟩
    | cons i rest =>
      rw [step_of_cons hpending] at hstep
      exact exec_absentLinesAtRest (s := { s with pending := rest }) hlen hrest hstep
  · exact ⟨_, rfl, powerOn_absentLinesAtRest straps a b s.pending⟩
  · exact ⟨exec_lineMode_of_absent hready hlane tag line mode, exec_lineSet_of_absent hready hlane tag line,
      exec_lineClear_of_absent hready hlane tag line⟩

end Sys2Proof.Machine
end

section
/-! PROOFS. The last-triggered record: what TRIGGER_ROW reports of it and what writes it (R112). -/

namespace Sys2Proof.Machine

/-! ### TRIGGER_ROW -/

@[simp] theorem State.withReply_kg (s : State) (p : Port) (r : Option Reply) : (s.withReply p r).kg = s.kg :=
  State.modifyPort_kg s p _

@[simp] theorem State.withReply_triggerRowRequest (s : State) (p : Port) (r : Option Reply) (tag : Byte) :
    (s.withReply p r).triggerRowRequest p tag = s.triggerRowRequest p tag := by
  simp only [State.triggerRowRequest, State.withReply_kg, State.withReply_answer]

theorem State.triggerRowRequest_of_none {s : State} (h : s.kg.lastTriggered = none) (p : Port) (tag : Byte) :
    s.triggerRowRequest p tag = s.reply p tag .nothing [] := by
  rw [State.triggerRowRequest, h, State.answer_eq_reply]

theorem State.triggerRowRequest_of_some {s : State} {d : Word × Word} (h : s.kg.lastTriggered = some d) (p : Port)
    (tag : Byte) : s.triggerRowRequest p tag =
      s.reply p tag .done (bytes32 d.1 ++ bytes32 d.2 ++ [if s.kg.itrig then 1 else 0]) := by
  obtain ⟨n, x⟩ := d
  rw [State.triggerRowRequest, h]
  rfl

theorem exec_triggerRow_of_ready {s : State} (h : s.Ready .inspection) (tag : Byte) :
    exec (.triggerRow .inspection tag) s =
      .next ((s.frameTaken .inspection).triggerRowRequest .inspection tag) :=
  State.atOnce_of_reply_unread (t := ⟨tag, .triggerRow⟩) h rfl rfl fun u r =>
    u.withReply_triggerRowRequest .inspection r tag

/-! ### The trigger event -/

theorem exec_triggerEvent_of_first {s : State} {n : Word} {rest : List TrackingEvent}
    (h : s.EventFirst (.trigger n) rest) : exec .triggerEvent s = .next ((s.withEvents rest).serveTrigger n) := by
  obtain ⟨hreset, hevents⟩ := h
  rw [exec, execTriggerEvent, State.awake_of_released hreset, hevents]

/-- R110: the trigger event of a present row records its number and trigger position. -/
theorem State.serveTrigger_lastTriggered {s : State} {n : Word} {r : Row} (h : s.row? n = some r) :
    (s.serveTrigger n).kg.lastTriggered = some (n, r.trigger) := by
  simp [State.serveTrigger, h]

/-- Settles O51: TRIGGER_ROW reads the record on the state that its frame has left; every command but a trigger event
and the power-on reset keeps the record by `exec_linesKept`. -/
theorem lastTriggeredRowReported : Obligations.LastTriggeredRowReported := by
  refine ⟨fun s tag hready => ?_, fun s n rest r hfirst hrow => ?_, fun straps a b s => ⟨_, rfl, rfl⟩,
    fun i s htrigger hrelease => ?_⟩
  · have hkg : (s.frameTaken .inspection).kg = s.kg := s.frameTaken_kg .inspection
    rw [exec_triggerRow_of_ready hready]
    refine ⟨fun hnone => ?_, fun d hd => ?_⟩
    · rw [State.triggerRowRequest_of_none (hkg ▸ hnone)]
    · rw [State.triggerRowRequest_of_some (hkg ▸ Option.mem_def.1 hd), hkg]
  · exact ⟨_, exec_triggerEvent_of_first hfirst, State.serveTrigger_lastTriggered (s := s.withEvents rest) hrow⟩
  · obtain ⟨t, ht, hkept⟩ := exec_linesKept s htrigger hrelease
    exact ⟨t, ht, hkept.record⟩

end Sys2Proof.Machine
end

section
/-! PROOFS. TAKE_NOTICE and PEEK_NOTICE, the pages of a notice, SET_ATTENTION and the attention lines
(R167, R168, R175). -/

namespace Sys2Proof.Machine

/-! ### Requests that change their own port and then answer -/

@[simp] theorem State.withReply_notices (s : State) (p : Port) (r : Option Reply) :
    ((s.withReply p r).port p).notices = (s.port p).notices := by
  rw [State.withReply, State.port_modifyPort, if_pos rfl]

theorem State.modifyPort_modifyPort (s : State) (p : Port) (f g : PortState → PortState) :
    (s.modifyPort p f).modifyPort p g = s.modifyPort p fun q => g (f q) := by
  cases p <;> rfl

/-- A change of the port that leaves the reply slot alone, with the answer after it, is the same whatever stood in that
slot. -/
theorem State.withReply_modifyPort_answer {f : PortState → PortState}
    (hf : ∀ (q : PortState) (r : Option Reply), f { q with reply := r } = { f q with reply := r })
    (s : State) (p : Port) (r : Option Reply) (tag : Byte) (code : ReplyCode) (result : List Byte) :
    ((s.withReply p r).modifyPort p f).answer p tag code result = (s.modifyPort p f).answer p tag code result := by
  have hswap : (s.withReply p r).modifyPort p f = (s.modifyPort p f).withReply p r := by
    have hfun : (fun q => f { q with reply := r }) = fun q => { f q with reply := r } := funext fun q => hf q r
    rw [State.withReply, State.modifyPort_modifyPort, hfun, State.withReply, State.modifyPort_modifyPort]
  rw [hswap, State.withReply_answer]

@[simp] theorem State.frameTaken_notices (s : State) (p : Port) :
    ((s.frameTaken p).port p).notices = (s.port p).notices := by
  cases p <;> rfl

/-! ### Presence bytes and the pages of a notice -/

/-- The bit put in below a shifted byte adds 1 or nothing: the two have no bit in common. -/
theorem byteOfBits_cons (b : Bool) (bs : List Bool) :
    byteOfBits (b :: bs) = BitVec.ofNat 8 (b.toNat + 2 * (byteOfBits bs).toNat) := by
  have hdisjoint : byteOfBits bs <<< 1 &&& (if b then 1 else 0) = 0 := by
    cases b
    · simp
    · simp only [if_true, BitVec.eq_of_getLsbD_eq_iff]
      intro i _
      by_cases hi : i = 0 <;> simp [hi]
  rw [byteOfBits, ← BitVec.add_eq_or_of_and_eq_zero _ _ hdisjoint]
  cases b <;> exact BitVec.eq_of_toNat_eq (by simp [Nat.shiftLeft_eq]; omega)

/-- The byte of a list of bits is their binary value, bit 0 first. -/
theorem byteOfBits_eq_ofDigits (bs : List Bool) :
    byteOfBits bs = BitVec.ofNat 8 (Nat.ofDigits 2 (bs.map Bool.toNat)) := by
  induction bs with
  | nil => rfl
  | cons b bs ih =>
    rw [byteOfBits_cons, ih, List.map_cons, Nat.ofDigits_cons]
    exact BitVec.eq_of_toNat_eq (by simp; omega)

theorem NoticeKind.level_le (k : NoticeKind) : k.level ≤ 2 := by
  cases k <;> decide

/-- R175: the level stands in bits 0 and 1 of the presence byte, the four presence bits above it. -/
theorem Notice.presence_presenceBits (n : Notice) : presence n.presenceBits =
    [BitVec.ofNat 8 (n.kind.level + (if n.row.isSome then 4 else 0) + (if n.stack.isSome then 8 else 0) +
      (if n.lane.isSome then 16 else 0) + (if n.position.isSome then 32 else 0))] := by
  have hlevel := n.kind.level_le
  have hif : ∀ (b : Bool) (k : Nat), (if b then k else 0) = k * b.toNat := fun b k => by cases b <;> simp
  have hbit : ∀ m : Nat, (decide (m % 2 = 1)).toNat = m % 2 := fun m => by
    rcases Nat.mod_two_eq_zero_or_one m with h | h <;> simp [h]
  rw [presence, byteOfBits_eq_ofDigits]
  simp only [Notice.presenceBits, List.map_cons, List.map_nil, Nat.ofDigits_cons, Nat.ofDigits_nil, hif, hbit]
  congr 2
  omega

/-- A list filled up with a value to a length reads as the list with that value past its end. -/
theorem take_append_replicate {α : Type} (l : List α) (a : α) (k : Nat) :
    (l ++ List.replicate k a).take k = (List.range k).map fun i => l.getD i a := by
  refine List.ext_getElem (by simp) fun i hi _ => ?_
  have hk : i < k := by simpa using hi
  rcases Nat.lt_or_ge i l.length with h | h
  · simp [h]
  · simp [h, List.getElem_append_right h]

theorem Notice.page_one (n : Notice) : n.page 1 =
    BitVec.ofNat 8 n.values.length :: (List.range 6).flatMap fun k => bytes16 (n.values.getD k 0) := by
  rw [Notice.page, take_append_replicate, List.flatMap_map]
  rfl

theorem Notice.page_two (n : Notice) : n.page 2 =
    BitVec.ofNat 8 n.values.length :: [6, 7].flatMap fun k => bytes16 (n.values.getD k 0) := by
  have hdrop : ∀ k, (n.values.drop 6).getD k 0 = n.values.getD (6 + k) 0 := fun k => by
    simp only [List.getD_eq_getElem?_getD, List.getElem?_drop]
  rw [Notice.page, take_append_replicate, List.flatMap_map]
  · simp only [hdrop]
    rfl
  · decide
  · decide

/-- R175: the three pages, each value of a notice at its own place and absent values as zeros. -/
theorem Notice.page_toNat (n : Notice) {page : Byte} (h : page.toNat ≤ 2) : n.page page.toNat =
    if page = 0 then
      [BitVec.ofNat 8 n.kind.code,
        BitVec.ofNat 8 (n.kind.level + (if n.row.isSome then 4 else 0) + (if n.stack.isSome then 8 else 0) +
          (if n.lane.isSome then 16 else 0) + (if n.position.isSome then 32 else 0))] ++
      bytes32 (n.row.getD 0) ++ bytes32 (n.position.getD 0) ++ bytes16 (n.stack.getD 0) ++
      [BitVec.ofNat 8 (n.lane.getD 0)]
    else
      BitVec.ofNat 8 n.values.length ::
        ((if page = 1 then (List.range 6) else [6, 7]).flatMap fun k => bytes16 (n.values.getD k 0)) := by
  have hcases : page = 0 ∨ page = 1 ∨ page = 2 := by bv_omega
  rcases hcases with rfl | rfl | rfl
  · change n.page 0 = _
    rw [Notice.page, Notice.presence_presenceBits]
    rfl
  · exact n.page_one
  · exact n.page_two

/-! ### TAKE_NOTICE and PEEK_NOTICE -/

theorem State.readNotice_of_badPage {s : State} {page : Byte} (h : 2 < page.toNat) (p : Port) (tag : Byte)
    (remove : Bool) : s.readNotice p tag page remove = s.reply p tag .badArg [] := by
  rw [State.readNotice, if_pos h, State.answer_eq_reply]

theorem State.readNotice_of_nil {s : State} {p : Port} {page : Byte} (hpage : page.toNat ≤ 2)
    (h : (s.port p).notices = []) (tag : Byte) (remove : Bool) :
    s.readNotice p tag page remove = s.reply p tag .nothing [] := by
  rw [State.readNotice, if_neg (by omega), h, State.answer_eq_reply]

theorem State.readNotice_of_head {s : State} {p : Port} {page : Byte} {n : Notice} (hpage : page.toNat ≤ 2)
    (h : n ∈ (s.port p).notices.head?) (tag : Byte) (remove : Bool) :
    s.readNotice p tag page remove = State.reply (s.setPort p { s.port p with
      notices := if remove then (s.port p).notices.tail else (s.port p).notices }) p tag .done
        (n.page page.toNat) := by
  obtain ⟨rest, hq⟩ := List.head?_eq_some_iff.1 h
  simp only [State.readNotice, if_neg (Nat.not_lt.2 hpage), hq, State.answer_eq_reply, State.modifyPort, List.tail_cons]

@[simp] theorem State.withReply_readNotice (s : State) (p : Port) (r : Option Reply) (tag page : Byte)
    (remove : Bool) : (s.withReply p r).readNotice p tag page remove = s.readNotice p tag page remove := by
  simp only [State.readNotice, State.withReply_answer, State.withReply_notices]
  split
  · rfl
  · split
    · rfl
    · exact State.withReply_modifyPort_answer (fun _ _ => rfl) s p r tag .done _

theorem exec_takeNotice_of_ready {s : State} {p : Port} (h : s.Ready p) (tag page : Byte) :
    exec (.takeNotice p tag page) s = .next ((s.frameTaken p).readNotice p tag page true) :=
  State.atOnce_of_reply_unread (t := ⟨tag, .takeNotice page⟩) h (by cases p <;> rfl) rfl fun u r =>
    u.withReply_readNotice p r tag page true

theorem exec_peekNotice_of_ready {s : State} {p : Port} (h : s.Ready p) (tag page : Byte) :
    exec (.peekNotice p tag page) s = .next ((s.frameTaken p).readNotice p tag page false) :=
  State.atOnce_of_reply_unread (t := ⟨tag, .peekNotice page⟩) h (by cases p <;> rfl) rfl fun u r =>
    u.withReply_readNotice p r tag page false

/-- Settles O32: both commands are one request on the state that their frame has left, which has the queue of `s`; the
page is judged, then the queue, and the oldest notice's page is laid out. -/
theorem noticeReadAndTaken : Obligations.NoticeReadAndTaken := by
  intro s p tag page i remove hready hi u
  have hexec : exec i s = .next (u.readNotice p tag page remove) := by
    rcases hi with ⟨rfl, rfl⟩ | ⟨rfl, rfl⟩
    · exact exec_takeNotice_of_ready hready tag page
    · exact exec_peekNotice_of_ready hready tag page
  have hnotices : (u.port p).notices = (s.port p).notices := s.frameTaken_notices p
  rw [hexec, ← hnotices]
  refine ⟨fun hpage => ?_, fun hpage hnil => ?_, fun hpage n hn => ?_⟩
  · rw [State.readNotice_of_badPage hpage]
  · rw [State.readNotice_of_nil hpage hnil]
  · rw [State.readNotice_of_head hpage hn, Notice.page_toNat n hpage]

/-! ### SET_ATTENTION -/

theorem thresholdOfCode?_eq_none {b : Byte} (h : 3 < b.toNat) : thresholdOfCode? b = none := by
  rw [thresholdOfCode?, if_neg, if_neg, if_neg, if_neg] <;> (rintro rfl; exact absurd h (by decide))

/-- R175: INFO, WARN, ALARM and OFF are the codes 0 to 3. -/
theorem thresholdOfCode?_eq_some {b : Byte} {t : Threshold} (h : b.toNat = t.code) :
    thresholdOfCode? b = some t := by
  have hb : b = BitVec.ofNat 8 t.code := by rw [← h, BitVec.ofNat_toNat, BitVec.setWidth_eq]
  subst hb
  cases t <;> rfl

theorem Threshold.code_of_mem {k : Nat} {t : Threshold}
    (h : (k, t) ∈ [(0, Threshold.info), (1, .warn), (2, .alarm), (3, .off)]) : k = t.code := by
  cases t <;> simpa [Threshold.code] using h

theorem State.setAttentionRequest_of_none {level : Byte} (h : thresholdOfCode? level = none) (s : State) (p : Port)
    (tag : Byte) : s.setAttentionRequest p tag level = s.reply p tag .badArg [] := by
  rw [State.setAttentionRequest, h, State.answer_eq_reply]

theorem State.setAttentionRequest_of_some {level : Byte} {t : Threshold} (h : thresholdOfCode? level = some t)
    (s : State) (p : Port) (tag : Byte) : s.setAttentionRequest p tag level =
      State.reply (s.setPort p { s.port p with threshold := t }) p tag .done [] := by
  rw [State.setAttentionRequest, h]
  rfl

@[simp] theorem State.withReply_setAttentionRequest (s : State) (p : Port) (r : Option Reply) (tag level : Byte) :
    (s.withReply p r).setAttentionRequest p tag level = s.setAttentionRequest p tag level := by
  rw [State.setAttentionRequest, State.setAttentionRequest]
  cases thresholdOfCode? level with
  | none => exact s.withReply_answer p r tag .badArg []
  | some t => exact State.withReply_modifyPort_answer (fun _ _ => rfl) s p r tag .done []

theorem exec_setAttention_of_ready {s : State} {p : Port} (h : s.Ready p) (tag level : Byte) :
    exec (.setAttention p tag level) s = .next ((s.frameTaken p).setAttentionRequest p tag level) :=
  State.atOnce_of_reply_unread (t := ⟨tag, .setAttention level⟩) h (by cases p <;> rfl) rfl fun u r =>
    u.withReply_setAttentionRequest p r tag level

/-! ### The attention lines -/

/-- R168: no level reaches OFF, since none is above ALARM. -/
theorem Notice.reaches_iff (n : Notice) (t : Threshold) : n.reaches t = true ↔
    t = .info ∨ t = .warn ∧ 1 ≤ n.kind.level ∨ t = .alarm ∧ 2 ≤ n.kind.level := by
  have hlevel := n.kind.level_le
  rw [Notice.reaches, decide_eq_true_iff]
  cases t with
  | info | warn | alarm => simp [Threshold.code]
  | off => simp [Threshold.code]; omega

theorem State.someOffer_iff (s : State) :
    s.someOffer = true ↔ ∃ l ∈ s.pock.lanes, ∃ k ∈ l.heldStack, k.state = .offered := by
  have hlane : ∀ o : Option Stack, (o.map fun k => decide (k.state = .offered)).getD false = true ↔
      ∃ k ∈ o, k.state = .offered := fun o => by cases o <;> simp
  simp only [State.someOffer, List.any_eq_true, hlane]

theorem State.attention_of_inReset {s : State} (h : s.inReset = true) (p : Port) : s.attention p = false := by
  rw [State.attention, h]
  rfl

theorem State.attention_iff_of_released {s : State} (h : s.inReset = false) (p : Port) : s.attention p = true ↔
    (∃ n ∈ (s.port p).notices, n.reaches (s.port p).threshold = true) ∨ p = .delivery ∧ s.someOffer = true := by
  simp [State.attention, h]

/-- R170: the power-on threshold is WARN. -/
theorem powerOn_threshold (straps : Straps) (a b : Bool) (queue : List Instr) (p : Port) :
    ((powerOn straps a b queue).port p).threshold = .warn := by
  cases p <;> rfl

/-- Settles O34: SET_ATTENTION decodes its level on the state that its frame has left, and the line is the pin function
of the queue, the threshold and the held stacks. -/
theorem attentionFollowsThreshold : Obligations.AttentionFollowsThreshold := by
  refine ⟨fun s p tag level hready => ?_, fun s p hreset => ?_, fun s p hreset => State.attention_of_inReset hreset p,
    fun straps a b s p => ⟨_, rfl, powerOn_threshold straps a b s.pending p⟩⟩
  · intro u
    rw [exec_setAttention_of_ready hready]
    refine ⟨fun hlevel => ?_, fun t ht => ?_⟩
    · rw [State.setAttentionRequest_of_none (thresholdOfCode?_eq_none hlevel)]
    · rw [State.setAttentionRequest_of_some (thresholdOfCode?_eq_some (Threshold.code_of_mem ht))]
  · simp only [State.attention_iff_of_released hreset, Notice.reaches_iff, State.someOffer_iff]

end Sys2Proof.Machine
end
